-- ==== Sys2Proof/Word.lean ====
section
/-! DEFINITION. The one machine word the ZS-30's two links and its EEPROM have: the byte. -/

namespace Sys2Proof

/-- A byte of a frame (R160, R178) or of the configuration record (R193). -/
abbrev Byte := BitVec 8

end Sys2Proof
end

