-- ==== Sys2Proof/Config.lean ====
section
/-! DEFINITION. What one station is configured with (the configuration record of R193, as fields), and the
free values: what the spec leaves open, each an opaque constant of which nothing can be proved. -/

namespace Sys2Proof

/-- R193: the role of a station, 1 saw, 2 plant, 3 console. -/
inductive Role where
  | saw | plant | console
deriving DecidableEq, Repr

/-- R157: the unknown-record mode, 1 report, 2 quiet. -/
inductive UnknownMode where
  | report | quiet
deriving DecidableEq, Repr

/-- R72: one entry of the blade table. -/
structure BladeType where
  /-- feed at 20 mm in class 1, mm/min -/
  f0 : Nat
  /-- full water need, flow steps -/
  q : Nat
  /-- minimum wetting flow, percent of `q` -/
  qmin : Nat
  /-- tenth-millimetres -/
  kerf : Nat
  /-- wear rates for material classes 1 to 4 -/
  wear1 : Nat
  wear2 : Nat
  wear3 : Nat
  wear4 : Nat
  newHeight : Nat
  wornLimit : Nat
  /-- price per wear unit -/
  price : Nat
deriving DecidableEq, Repr

/-- R193: the configuration record, as the fields the chapters read. -/
structure ConfigRecord where
  station : Nat
  role : Role
  /-- types 0 to 7, in order -/
  blades : List BladeType
  grid : Nat
  trim : Nat
  minLength : Nat
  minWidth : Nat
  /-- seconds -/
  claimWindow : Nat
  drawCeiling : Nat
  fallback : Nat
  maxCapacity : Nat
  stopMark : Nat
  resumeMark : Nat
  lowMark : Nat
  highMark : Nat
  allowance : Nat
  changeStep : Nat
  feedFloor : Nat
  machineRate : Nat
  recycledPrice : Nat
  freshPrice : Nat
  logThreshold : Nat
  unknownMode : UnknownMode
  /-- seconds -/
  primeTime : Nat
  epoch : Nat
deriving DecidableEq, Repr

/-- The fields as they read before any record has been taken into use (DESIGN CHOICE, log 4). -/
def BladeType.blank : BladeType :=
  ⟨0, 0, 0, 0, 0, 0, 0, 0, 0, 0, 0⟩

/-- The record as it reads before any has been taken into use: zeros. The spec gives configuration fields defaults
(R130's Default column: 50, 150, 300, 700, 100, 10; R14, R31, R40, R43, R77, R156 and chapter 4 the others) and does not
say whether or when the part takes one: the model takes none anywhere (DESIGN CHOICE, log 4). -/
def ConfigRecord.blank : ConfigRecord :=
  { station := 0, role := .saw, blades := [], grid := 0, trim := 0, minLength := 0, minWidth := 0,
    claimWindow := 0, drawCeiling := 0, fallback := 0, maxCapacity := 0, stopMark := 0,
    resumeMark := 0, lowMark := 0, highMark := 0, allowance := 0, changeStep := 0, feedFloor := 0,
    machineRate := 0, recycledPrice := 0, freshPrice := 0, logThreshold := 0,
    unknownMode := .report, primeTime := 0, epoch := 0 }

/-! ### Free values -/

/-- R169: the draw of the `n`-th deferral; the slots it gives are taken from it within the rule's bounds (log 3). -/
opaque Config.deferralDraw : Nat → Nat

/-- R194: whether a write-back of the epoch that failed left the new epoch in the EEPROM (log 3). -/
opaque Config.failedEpochWriteLands : Nat → Bool

/-- R174: how many bytes had come back equal when a line test ended by its tick (log 33). -/
opaque Config.loopBytesBack : Nat → Nat

/-- R159: whether a frame was in progress on the line as a line test ended by its tick let the station rejoin (log 37). -/
opaque Config.frameUnderWay : Nat → Bool

/-- R178: how many bytes the field at a position of a reply or signal of a type takes, where the spec gives the field
no size (log 32). -/
opaque Config.fieldWidth : Nat → Nat → Nat

/-- R178: the code of a name in such a field (log 32). -/
opaque Config.nameCode : Nat → Nat → Nat → Nat

/-- R195: what byte the EEPROM holds at an address after a record write that failed (log 7). -/
opaque Config.failedWriteByte : Nat → Nat → Byte

/-- The quotient of a number by 0, which arises only from a carried record outside R1 (log 8). -/
opaque Config.quotientByZero : Nat → Nat

/-- R82: the hardness percent of a material class outside 1 to 4 (log 8). -/
opaque Config.hardnessOutside : Nat → Nat

/-- R72: the wear rate of a material class outside 1 to 4 (log 8). -/
opaque Config.wearRateOutside : Nat → Nat

/-- R90: the water price at a fresh fraction above 100 (log 8). -/
opaque Config.waterPriceOutside : Nat → Nat

end Sys2Proof
end

