-- ==== Sys2Proof/Syntax.lean ====
section
/-! DEFINITION. The commands, notices and events of the ZS-30: one constructor of `Instr` for each row of
spec/opcode_table.json, with the operands the spec gives the row, and the records they carry. -/

namespace Sys2Proof

/-- R1: the slab's shop-wide name. -/
structure SlabId where
  origin : Nat
  epoch : Nat
  seq : Nat
deriving DecidableEq, Repr

/-- R1: RAW for a yard slab, CUT for a remnant. -/
inductive EdgeKind where
  | raw | cut
deriving DecidableEq, Repr

/-- R3: the five slab states, and what a record with another state code is taken as (R162: fields are taken as
carried; log 12). -/
inductive SlabState where
  | free | claimed | loaded | cut | scrapped
  /-- a carried state code that names no state -/
  | undefined (code : Nat)
deriving DecidableEq, Repr

/-- R1: a defect rectangle. -/
structure Defect where
  x : Nat
  y : Nat
  length : Nat
  width : Nat
deriving DecidableEq, Repr

/-- R1: the slab record. -/
structure SlabRecord where
  id : SlabId
  parent : Option SlabId
  cls : Nat
  thickness : Nat
  length : Nat
  width : Nat
  edge : EdgeKind
  defects : List Defect
  value : Nat
  state : SlabState
  holder : Option Nat
  job : Option Nat
  priority : Option Nat
  place : Nat
  version : Nat
  scored : Bool
deriving DecidableEq, Repr

/-- R7: the reason of a FREE notice, and what another reason code is taken as (R162; log 12). -/
inductive FreeReason where
  | released | unloaded | orphan | forced
  /-- a carried reason code that names no reason -/
  | undefined (code : Nat)
deriving DecidableEq, Repr

/-- R35: the header PLAN-BEGIN carries. -/
structure PlanHeader where
  slab : SlabId
  chargeJob : Nat
  steps : Nat
  leaves : Nat
deriving DecidableEq, Repr

/-- R36, R177: a step entry as PLAN-PART carries it, its axis as the code sent (1 X, 2 Y). -/
structure StepEntry where
  region : Nat
  axis : Nat
  offset : Nat
deriving DecidableEq, Repr

/-- R36, R177: a leaf entry as PLAN-PART carries it, its kind as the code of bits 0 and 1 (1 PIECE, 2 REMNANT, 3 WASTE). -/
structure LeafEntry where
  region : Nat
  kind : Nat
  job : Nat
  tag : Nat
deriving DecidableEq, Repr

/-- R69, R175: what a TALLY carries. -/
structure Tally where
  job : Nat
  time : Nat
  water : Nat
  wear : Nat
  slab : Nat
  volume : Nat
  /-- tenth-millimetres -/
  length : Nat
  pieces : Nat
deriving DecidableEq, Repr

/-- R194: how the write-back of the epoch ended. -/
inductive EpochWrite where
  /-- acknowledged, and both values read back equal; the station then joins the line, where a frame may be in progress
  (R159) -/
  | confirmed (frameUnderWay : Bool)
  /-- a missing acknowledge -/
  | noAcknowledge
  /-- a value read back unequal -/
  | readBackUnequal
deriving DecidableEq, Repr

/-- R174: how the line test ended: the bytes that came back through the loop, and whether a frame is in progress on the
line as the station rejoins it (R159). -/
structure LoopEnd where
  received : List Byte
  frameUnderWay : Bool
deriving DecidableEq, Repr

/-- The commands and events of the block, one constructor for each row of spec/opcode_table.json. -/
inductive Instr where
  -- port commands of every role (R185)
  | status
  | querySlab (id : SlabId)
  | queryJob (job : Nat)
  | stockList (start filter : Nat)
  | logRead (count : Nat)
  | faultRead
  | faultAck (kinds : Nat)
  | clear
  | lineTest
  | configWrite (record : List Byte)
  -- saw commands
  | claim (id : SlabId) (job priority : Nat)
  | release (id : SlabId)
  | load (id : SlabId)
  | unload
  | planBegin (header : PlanHeader)
  | planPart (steps : List StepEntry) (leaves : List LeafEntry)
  | planEnd
  | planDrop
  | planAbort (length : Nat)
  | cutAsk
  | cutHalted (length : Nat)
  | cutDone (length : Nat)
  | bladeChange (type serial height : Nat)
  | park
  | unpark
  | queryPlan
  -- plant command
  | plantReport (level clarifier makeup : Nat)
  -- console commands
  | yardIn (cls thickness length width : Nat) (defects : List Defect) (value : Nat)
  | scrap (id : SlabId)
  | forceFree (id : SlabId)
  | jobOpen (job : Nat)
  | jobClose (job : Nat)
  | waterOverride
  -- events of the machine port
  | unknownCommandType (type : Byte) (body : List Byte)
  | commandFrameDropped (bytes : List Byte) (gap : Bool)
  | outputFrameSent
  -- notices of other stations, completed on the shop line
  | yardInNotice (sender : Nat) (record : SlabRecord)
  | claimNotice (sender pre : Nat) (record : SlabRecord)
  | lapseNotice (sender pre : Nat) (record : SlabRecord)
  | freeNotice (sender : Nat) (reason : FreeReason) (pre : Nat) (record : SlabRecord)
  | loadNotice (sender pre : Nat) (record : SlabRecord)
  | splitNotice (sender index count pre : Nat) (records : List SlabRecord)
  | scrapNotice (sender pre : Nat) (record : SlabRecord)
  | stockAskNotice (sender : Nat)
  | stockStateNotice (sender index count : Nat) (records : List SlabRecord)
  | drawNotice (sender request : Nat) (lock : Bool) (grant : Nat)
  | plantNotice (sender capacity fresh : Nat) (stop stale : Bool)
  | waterOverrideNotice (sender : Nat)
  | tallyNotice (sender : Nat) (tally : Tally)
  | jobOpenNotice (sender job : Nat)
  | jobCloseNotice (sender job : Nat)
  | restartNotice (sender : Nat)
  -- events of the shop line
  | frameDropped (bytes : List Byte)
  | duplicateNumber
  | quietWaitElapsed (stillQuiet : Bool)
  | cleanEcho
  | echoMismatch
  | deferralEnd
  | lineTestEnd (loop : LoopEnd)
  -- timers
  | claimWindowExpiry
  | orphanWatchExpiry (id : SlabId)
  | primingEnd
  | refreshTimerExpiry
  | ageTimerExpiry (station : Nat)
  | plantHeardTimerExpiry
  | reportTimerExpiry
  | announceTimerExpiry
  -- start-up
  | powerOn
  | autoload (noAcknowledgeAt : Option Nat)
  | epochWriteBack (result : EpochWrite)
  | configRecordWrite (noAcknowledgeAt : Option Nat)
deriving DecidableEq, Repr

end Sys2Proof
end

