-- ==== Sys2Proof/Machine/State.lean ====
section
/-! DEFINITION. The state of one station as plain data, unit by unit as the spec's section 3 (Blocks) lays it
out, and its value right after power-on. Quantities are natural numbers; their ranges are in INVENTORY.md. -/

namespace Sys2Proof.Machine

/-! ### Start-up, configuration and faults -/

/-- R192: the five run states. -/
inductive RunState where
  | starting | configFault | running | listenOnly | loopback
deriving DecidableEq, Repr

/-- Which part of STARTING is under way (R193 to R195). -/
inductive StartPhase where
  /-- not in STARTING -/
  | none
  /-- autoload is reading the record -/
  | reading
  /-- the record has passed and the advanced epoch is being written back -/
  | writingEpoch (record : ConfigRecord) (epoch : Nat)
  /-- the record of a CONFIG-WRITE is being written -/
  | writingRecord (bytes : List Byte)
deriving DecidableEq, Repr

/-- R198: the fault kinds, in the order of its table. -/
inductive FaultKind where
  | configRead | configBad | epochWrite | dupStation | lineLost | stockFull | jobFull | logFull
  | plantSilent | plantStale | overdraw
deriving DecidableEq, Repr

/-- R198: one sticky flag for each fault kind. -/
structure FaultFlags where
  configRead : Bool
  configBad : Bool
  epochWrite : Bool
  dupStation : Bool
  lineLost : Bool
  stockFull : Bool
  jobFull : Bool
  logFull : Bool
  plantSilent : Bool
  plantStale : Bool
  overdraw : Bool
deriving DecidableEq, Repr

/-- R198: the last-fault entry. -/
structure LastFault where
  kind : FaultKind
  time : Nat
  detail : Nat
deriving DecidableEq, Repr

/-- The start-up and fault unit. -/
structure Boot where
  runState : RunState
  phase : StartPhase
  shopTime : Nat
  config : Option ConfigRecord
  /-- the boot epoch in force -/
  epoch : Nat
  /-- R195: the epoch last advanced to since power-on -/
  advanced : Option Nat
  listenOnly : Bool
  eeprom : List Byte
  faults : FaultFlags
  lastFault : Option LastFault
deriving DecidableEq, Repr

/-! ### Notices and the line unit -/

/-- R175: a notice with its payload. A SPLIT or STOCK-STATE is one fragment. -/
inductive Notice where
  | yardIn (record : SlabRecord)
  | claim (pre : Nat) (record : SlabRecord)
  | lapse (pre : Nat) (record : SlabRecord)
  | free (reason : FreeReason) (pre : Nat) (record : SlabRecord)
  | load (pre : Nat) (record : SlabRecord)
  | split (pre : Nat) (records : List SlabRecord)
  | scrap (pre : Nat) (record : SlabRecord)
  | stockAsk
  | stockState (records : List SlabRecord)
  | draw (request : Nat) (lock : Bool) (grant : Nat)
  | plant (capacity fresh : Nat) (stop stale : Bool)
  | waterOverride
  | tally (tally : Tally)
  | jobOpen (job : Nat)
  | jobClose (job : Nat)
  | restart
deriving DecidableEq, Repr

/-- R185: the commands of the machine port. -/
inductive Cmd where
  | status | querySlab | queryJob | stockList | logRead | faultRead | faultAck | clear | lineTest
  | configWrite | claim | release | load | unload | planBegin | planPart | planEnd | planDrop
  | planAbort | cutAsk | cutHalted | cutDone | bladeChange | park | unpark | queryPlan
  | plantReport | yardIn | scrap | forceFree | jobOpen | jobClose | waterOverride
deriving DecidableEq, Repr

/-- R108: the purposes of an own DRAW. -/
inductive DrawPurpose where
  | lock | unlock | request | prompt | refresh
deriving DecidableEq, Repr

/-- R164: an entry of the outgoing queue. -/
structure QEntry where
  notice : Notice
  /-- fragment index, from 1 -/
  index : Nat
  count : Nat
  /-- the command waiting on the notice -/
  cmd : Option Cmd
  attempts : Nat
  /-- of an own DRAW: what it was queued for -/
  purpose : Option DrawPurpose
  /-- of an own DRAW: it has absorbed a REFRESH or an UNLOCK (R108) -/
  absorbed : Bool
  /-- of a SPLIT fragment: it has been lost once (R23) -/
  second : Bool
  /-- of a STOCK-STATE fragment: the answer it belongs to (R27) -/
  batch : Nat
deriving DecidableEq, Repr

/-- R165: the separate causes for which an owner waits for room in the queue. -/
inductive WaitCause where
  | lapse (id : SlabId)
  | orphan (id : SlabId)
  | ownDraw
  | plant
  | stockState
  | completion
  | splitAgain
  | start
deriving DecidableEq, Repr

/-- R165: a waiter and the notices it holds, in their order. -/
structure Waiter where
  cause : WaitCause
  notices : List QEntry
deriving DecidableEq, Repr

/-- R166: the line unit's access state. -/
inductive Access where
  | idle
  | waitQuiet
  | sending
  | deferring (slots : Nat)
deriving DecidableEq, Repr

/-- The line unit. -/
structure Line where
  queue : List QEntry
  waiters : List Waiter
  access : Access
  /-- the bytes the transmitter drives, on the line or in the loop -/
  driving : List Byte
  /-- R159: a frame that was in progress as the station joined has not come to its end -/
  midFrame : Bool
  framesSent : Nat
  deferrals : Nat
  receiveErrors : Nat
deriving DecidableEq, Repr

/-! ### The stock unit -/

/-- R16: an orphan watch: the ticks it has still to run, and the version it was started at. -/
structure Watch where
  remaining : Nat
  version : Nat
deriving DecidableEq, Repr

/-- R4: a stock table entry. -/
structure StockEntry where
  slab : SlabRecord
  watch : Option Watch
deriving DecidableEq, Repr

/-- The stock unit. -/
structure Stock where
  /-- in order of entry -/
  table : List StockEntry
  /-- R29: the next sequence to issue; 65536 when the counter is exhausted -/
  seqNext : Nat
  /-- R14: the claim window's remaining ticks, while it runs -/
  window : Option Nat
  heldExpiry : Bool
  /-- R27: the number of the last answer to a STOCK-ASK -/
  answerBatch : Nat
  /-- R27: a fragment of that answer has completed -/
  answerTouched : Bool
deriving DecidableEq, Repr

/-! ### The plan unit -/

/-- R32: the axis of a step. -/
inductive Axis where
  | x | y
deriving DecidableEq, Repr

/-- R33: the kinds of leaf. -/
inductive LeafKind where
  | piece | remnant | waste
deriving DecidableEq, Repr

/-- A step received into the staging buffer. -/
structure StagedStep where
  region : Nat
  axis : Axis
  offset : Nat
deriving DecidableEq, Repr

/-- A leaf received into the staging buffer; job and tag are 0 unless it is a PIECE (R177). -/
structure StagedLeaf where
  region : Nat
  kind : LeafKind
  job : Nat
  tag : Nat
deriving DecidableEq, Repr

/-- R34: the staging buffer. -/
structure Staging where
  header : PlanHeader
  steps : List StagedStep
  leaves : List StagedLeaf
deriving DecidableEq, Repr

/-- R45: the status of a step. -/
inductive StepStatus where
  | pending | inProgress | done
deriving DecidableEq, Repr

/-- R45: a step of a plan. -/
structure PlanStep where
  region : Nat
  axis : Axis
  offset : Nat
  status : StepStatus
  doneLength : Nat
deriving DecidableEq, Repr

/-- R43, R45: a leaf of a plan, with its demotion. -/
structure PlanLeaf where
  region : Nat
  kind : LeafKind
  job : Nat
  tag : Nat
  demoted : Bool
deriving DecidableEq, Repr

/-- R46: the status of a region. -/
inductive RegionStatus where
  | awaiting | whole | inCut | divided | leaf
deriving DecidableEq, Repr

/-- R46: an entry of the region table. -/
structure Region where
  number : Nat
  x : Nat
  y : Nat
  length : Nat
  width : Nat
  /-- 0 for region 1 -/
  parent : Nat
  /-- 0 for region 1 -/
  createdBy : Nat
  cutBy : Option Nat
  /-- leaf index -/
  leaf : Option Nat
  status : RegionStatus
deriving DecidableEq, Repr

/-- R50, R52: what a region became. -/
inductive OutcomeKind where
  | piece (job tag : Nat)
  | remnant (scored : Bool)
  | waste
deriving DecidableEq, Repr

/-- R104: an outcome with its region's area, and the value or piece charge worked for it. -/
structure Outcome where
  kind : OutcomeKind
  region : Nat
  leaf : Option Nat
  area : Nat
  amount : Nat
deriving DecidableEq, Repr

/-- R104: the worked split. -/
structure SplitWork where
  outcomes : List Outcome
  loss : Nat
deriving DecidableEq, Repr

/-- R69: the sums over every segment charged in the plan. -/
structure SegmentSums where
  time : Nat
  water : Nat
  wear : Nat
  volume : Nat
  length : Nat
deriving DecidableEq, Repr

/-- R45, R46: the plan and its region table. -/
structure Plan where
  header : PlanHeader
  kerf : Nat
  trim : Nat
  minLength : Nat
  minWidth : Nat
  steps : List PlanStep
  leaves : List PlanLeaf
  /-- in ascending order of region number -/
  regions : List Region
  sums : SegmentSums
  /-- the number of segments charged -/
  segments : Nat
  split : Option SplitWork
deriving DecidableEq, Repr

/-- R188: what QUERY-PLAN reads of a plan; its outcome list and loss in SPLITTING alone. -/
structure PlanView where
  header : PlanHeader
  kerf : Nat
  trim : Nat
  minLength : Nat
  minWidth : Nat
  steps : List PlanStep
  leaves : List PlanLeaf
  regions : List Region
  split : Option SplitWork
deriving DecidableEq, Repr

/-- The plan unit. -/
structure PlanUnit where
  staging : Option Staging
  plan : Option Plan
deriving DecidableEq, Repr

/-! ### The cut unit -/

/-- R55: the cut states. -/
inductive CutState where
  | empty | claimed | loaded | staging | planned | cutting | suspended | splitting
deriving DecidableEq, Repr

/-- R62: the start values of the open segment. -/
structure Segment where
  step : Nat
  doneBefore : Nat
  grant : Nat
  fresh : Nat
  seating : Bool
  /-- the effective feed -/
  feed : Nat
deriving DecidableEq, Repr

/-- R71: the blade record. -/
structure Blade where
  type : Nat
  serial : Nat
  height : Nat
  remainder : Nat
  seating : Bool
deriving DecidableEq, Repr

/-- The cut unit. -/
structure CutUnit where
  state : CutState
  /-- the slab the cut state holds -/
  held : Option SlabId
  segment : Option Segment
  /-- R61: the waiting mark -/
  waiting : Bool
  blade : Blade
  parked : Bool
  /-- R77: the priming timer's remaining ticks, while it runs -/
  priming : Option Nat
  /-- SPLIT fragments not yet applied or written (R22, R23) -/
  splitLeft : Nat
deriving DecidableEq, Repr

/-! ### The water unit -/

/-- R106: an entry of the draw table; `age` is none on the own entry. -/
structure DrawEntry where
  station : Nat
  requested : Nat
  granted : Nat
  locked : Bool
  age : Option Nat
deriving DecidableEq, Repr

/-- R105: the water unit. The pending own DRAW is the waiter of cause `ownDraw` in the line unit. -/
structure Water where
  capacity : Nat
  stop : Bool
  stale : Bool
  fresh : Nat
  plantHeard : Option Nat
  silent : Bool
  lastPlant : Nat
  /-- in ascending order of station number; the own entry is always present -/
  draws : List DrawEntry
  ownRequest : Nat
  refresh : Option Nat
  overdraw : Bool
deriving DecidableEq, Repr

/-! ### The plant unit -/

/-- R129: the last report, with the shop time at which it was accepted. -/
structure PlantReport where
  level : Nat
  clarifier : Nat
  makeup : Nat
  time : Nat
deriving DecidableEq, Repr

/-- R129, R136: the announced reference and the flags of the last own PLANT notice applied. -/
structure Announced where
  capacity : Nat
  stop : Bool
  stale : Bool
deriving DecidableEq, Repr

/-- R129: the plant unit. The queued PLANT is the entry or waiter that holds it in the line unit. -/
structure Plant where
  report : Option PlantReport
  reportTimer : Option Nat
  capacity : Nat
  fresh : Nat
  stop : Bool
  stale : Bool
  announced : Option Announced
  announceTimer : Option Nat
deriving DecidableEq, Repr

/-! ### The costing unit -/

/-- R142: a job is OPEN or CLOSED. -/
inductive JobState where
  | opened | closed
deriving DecidableEq, Repr

/-- R142: a job table entry. -/
structure JobEntry where
  job : Nat
  state : JobState
  time : Nat
  water : Nat
  wear : Nat
  slab : Nat
  volume : Nat
  /-- whole millimetres -/
  length : Nat
  /-- tenth-millimetres, 0 to 9 -/
  carry : Nat
  pieces : Nat
  late : Nat
  gap : Bool
  lastChange : Nat
deriving DecidableEq, Repr

/-- R153: CUT for a segment, SLAB for a piece charge or a no-piece loss. -/
inductive LogKind where
  | cut | slab
deriving DecidableEq, Repr

/-- R145, R153: where a charge went. -/
inductive Disposition where
  | totals | late | noEntry
deriving DecidableEq, Repr

/-- R153: a cost log record. -/
structure LogRecord where
  kind : LogKind
  job : Nat
  slabId : SlabId
  step : Nat
  time : Nat
  water : Nat
  wear : Nat
  slab : Nat
  volume : Nat
  length : Nat
  shopTime : Nat
  disposition : Disposition
deriving DecidableEq, Repr

/-- The costing unit. -/
structure Costing where
  /-- in order of creation -/
  jobs : List JobEntry
  /-- oldest first -/
  log : List LogRecord
  /-- R156: the high-water mark is armed -/
  armed : Bool
deriving DecidableEq, Repr

/-! ### The port unit -/

/-- R189: the status codes. -/
inductive Status where
  | ok | busy | wrongRole | wrongState | unknown | stale | lost | holding | full | lineLost | silent
  | badField | wrongSlab | tooLarge | badRegion | offGrid | outOfRegion | leafMissing | leafExtra
  | defectInPiece | jobClosed | idExhausted | waitParked | waitPriming | waitStop | waitBlade
  | waitWater | kerfMismatch | pass | fail
deriving DecidableEq, Repr

/-- R59: the cut given to the controller. -/
structure CutGrant where
  step : Nat
  axis : Axis
  startX : Nat
  startY : Nat
  length : Nat
  grant : Nat
  feed : Nat
  duration : Nat
deriving DecidableEq, Repr

/-- R186: the saw group of STATUS. -/
structure SawStatus where
  state : CutState
  held : Option SlabId
  step : Option Nat
  doneLength : Nat
  parked : Bool
  priming : Option Nat
  waiting : Bool
  window : Option Nat
  blade : Blade
deriving DecidableEq, Repr

/-- R186: the plant group of STATUS. -/
structure PlantStatus where
  report : Option PlantReport
  age : Option Nat
  capacity : Nat
  fresh : Nat
  stop : Bool
  stale : Bool
  reference : Option Nat
deriving DecidableEq, Repr

/-- R186: the groups STATUS carries in RUNNING, LISTEN-ONLY and LOOPBACK. A role's group is none, sent as
zero, at a station of another role. `outstanding` is R179's: R186's list does not name it (DESIGN CHOICE, log 46). -/
structure FullStatus where
  runState : RunState
  role : Role
  station : Nat
  epoch : Nat
  shopTime : Nat
  faults : FaultFlags
  portErrors : Nat
  overrun : Bool
  outstanding : Bool
  queueEntries : Nat
  waiterCount : Nat
  framesSent : Nat
  deferrals : Nat
  receiveErrors : Nat
  stockEntries : Nat
  jobEntries : Nat
  logRecords : Nat
  armed : Bool
  capacity : Nat
  stop : Bool
  stale : Bool
  silent : Bool
  fresh : Nat
  ownRequest : Nat
  ownGrant : Nat
  ownLocked : Bool
  drawEntries : Nat
  lockedSum : Nat
  unlockedSum : Nat
  overdraw : Bool
  excess : Nat
  saw : Option SawStatus
  plant : Option PlantStatus
deriving DecidableEq, Repr

/-- R187: one listed entry. -/
structure Listed where
  id : SlabId
  state : SlabState
  /-- 0 when absent -/
  holder : Nat
  version : Nat
deriving DecidableEq, Repr

/-- The fields a reply carries behind its status code, as the owner rule gives them. -/
inductive ReplyBody where
  | none
  /-- STATUS in STARTING (R186) -/
  | starting
  /-- STATUS in CONFIG FAULT (R186) -/
  | configFault (faults : FaultFlags) (last : Option LastFault) (shopTime portErrors : Nat)
  | status (report : FullStatus)
  | slab (record : SlabRecord)
  /-- QUERY-SLAB in quiet mode: state ABSENT, only the id not zero (R157) -/
  | slabAbsent (id : SlabId)
  | job (entry : JobEntry)
  /-- QUERY-JOB in quiet mode: state ABSENT and zeros (R157) -/
  | jobAbsent
  | stockList (entries : Nat) (listed : List Listed) (next : Nat)
  | log (records : List LogRecord) (held : Nat)
  | faults (flags : FaultFlags) (last : Option LastFault)
  | faultFlags (flags : FaultFlags)
  | slabId (id : SlabId)
  | counts (steps leaves : Nat)
  /-- the index of a plan check (R37) -/
  | index (index : Nat)
  | planFormed (demoted pieces remnants wastes kerf : Nat)
  | outcomeCounts (pieces remnants wastes : Nat)
  | cut (grant : CutGrant)
  | segment (length duration volume wear total : Nat)
  | staging (buffer : Staging)
  | plan (view : PlanView)
  | plantReport (capacity fresh : Nat) (stop announced : Bool)
  /-- the first byte of a failed line test (R174) -/
  | position (position : Nat)
  | runState (runState : RunState)
  | configFailed (kind : FaultKind) (detail : Nat)
deriving DecidableEq, Repr

/-- R178, R189: a reply; `type` is the command's type with 80 hexadecimal added. -/
structure Reply where
  type : Nat
  status : Status
  body : ReplyBody
deriving DecidableEq, Repr

/-- R184: the signals. -/
inductive Signal where
  | preempted (id : SlabId)
  | lapsed (id : SlabId)
  | clearToCut (step : Nat)
  | halt (step doneBefore : Nat)
  | logHigh (count : Nat)
  | fault (kind : FaultKind) (detail time : Nat)
  | water (grant request : Nat) (locked : Bool) (capacity : Nat) (stop stale : Bool)
deriving DecidableEq, Repr

/-- A frame from the station to its controller. -/
inductive PortFrame where
  | reply (reply : Reply)
  | signal (signal : Signal)
deriving DecidableEq, Repr

/-- R183: an entry of the output list: its frame, whether its transmission has begun, and whether it is a
signal held back while STARTING lasts. -/
structure OutEntry where
  frame : PortFrame
  begun : Bool
  held : Bool
deriving DecidableEq, Repr

/-- The port unit. READY is computed (`State.ready`, R181). -/
structure Port where
  outstanding : Option Cmd
  out : List OutEntry
  /-- a frame is on the wire -/
  txBusy : Bool
  portErrors : Nat
  overrun : Bool
deriving DecidableEq, Repr

/-! ### The station -/

/-- One station: its units, and the queue of commands and events that are waiting, first in, first out. -/
structure State where
  pending : List Instr
  /-- how many free values have been drawn (log 3) -/
  freeCount : Nat
  boot : Boot
  port : Port
  line : Line
  stock : Stock
  plan : PlanUnit
  cut : CutUnit
  water : Water
  plant : Plant
  cost : Costing
deriving DecidableEq, Repr

/-- Nothing stops the block: the spec gives every command and event an effect in every state, so no fault is
ever raised as an outcome of a step (the fault record of R198 is state). -/
inductive Fault where
deriving DecidableEq, Repr

/-- The one refusal. -/
inductive Refusal where
  /-- Raised by an arm of `exec` whose row has no meaning yet (safe: nothing is claimed of it). No arm uses it. -/
  | notModelled (mnemonic : String)
deriving DecidableEq, Repr

/-! ### Power-on values -/

/-- R193: the fault flags are clear at power-on. -/
def FaultFlags.clear : FaultFlags :=
  ⟨false, false, false, false, false, false, false, false, false, false, false⟩

/-- R191. -/
def Port.reset : Port :=
  { outstanding := none, out := [], txBusy := false, portErrors := 0, overrun := false }

/-- R177. -/
def Line.reset : Line :=
  { queue := [], waiters := [], access := .idle, driving := [], midFrame := false, framesSent := 0,
    deferrals := 0, receiveErrors := 0 }

/-- R30. -/
def Stock.reset : Stock :=
  { table := [], seqNext := 1, window := none, heldExpiry := false, answerBatch := 0,
    answerTouched := false }

/-- R54. -/
def PlanUnit.reset : PlanUnit := { staging := none, plan := none }

/-- R79: the blade record at power-on. -/
def Blade.reset : Blade := { type := 0, serial := 0, height := 0, remainder := 0, seating := true }

/-- R79. -/
def CutUnit.reset : CutUnit :=
  { state := .empty, held := none, segment := none, waiting := false, blade := Blade.reset,
    parked := false, priming := none, splitLeft := 0 }

/-- R106, R128: the own entry with request 0, grant 0, unlocked. -/
def DrawEntry.own (station : Nat) : DrawEntry :=
  { station := station, requested := 0, granted := 0, locked := false, age := none }

/-- R128, the draw table holding the entry of `station` alone. R128 has the own request worked out when RUNNING is
entered; until then it is 0 (DESIGN CHOICE, log 35). -/
def Water.reset (station : Nat) : Water :=
  { capacity := 0, stop := false, stale := false, fresh := 0, plantHeard := none, silent := false,
    lastPlant := 0, draws := [DrawEntry.own station], ownRequest := 0, refresh := none,
    overdraw := false }

/-- R141. -/
def Plant.reset : Plant :=
  { report := none, reportTimer := none, capacity := 0, fresh := 0, stop := false, stale := false,
    announced := none, announceTimer := none }

/-- R158. -/
def Costing.reset : Costing := { jobs := [], log := [], armed := true }

/-- R192, R193: power has just been applied and autoload is reading the record. -/
def Boot.reset (eeprom : List Byte) : Boot :=
  { runState := .starting, phase := .reading, shopTime := 0, config := none, epoch := 0,
    advanced := none, listenOnly := false, eeprom := eeprom, faults := FaultFlags.clear,
    lastFault := none }

/-- The station right after power-on (R193). The spec gives the EEPROM no value: 256 bytes of 0 (DESIGN
CHOICE, log 5). -/
def State.reset : State :=
  { pending := [], freeCount := 0, boot := Boot.reset (List.replicate 256 0), port := Port.reset,
    line := Line.reset, stock := Stock.reset, plan := PlanUnit.reset, cut := CutUnit.reset,
    water := Water.reset 0, plant := Plant.reset, cost := Costing.reset }

end Sys2Proof.Machine
end

