-- ==== Sys2Proof/Machine/Formats.lean ====
section
/-! DEFINITION. Byte layouts: the check (R161), the line frame and its payloads (R160, R175, R177), the slab,
plan and cost log records (R177), the machine-port frame (R178) and the configuration record (R193). -/

namespace Sys2Proof.Machine

/-! ### Bytes: fields of two and four bytes are sent least significant byte first (R177) -/

/-- The low byte of a number. -/
def byte (n : Nat) : Byte := BitVec.ofNat 8 n

/-- R177: a field of two bytes. -/
def w16 (n : Nat) : List Byte := [byte n, byte (n / 256)]

/-- R177: a field of four bytes. -/
def w32 (n : Nat) : List Byte := [byte n, byte (n / 256), byte (n / 65536), byte (n / 16777216)]

/-- The byte at an offset. -/
def rd8 (l : List Byte) (o : Nat) : Nat := (l.getD o 0#8).toNat

/-- R177: the field of two bytes at an offset. -/
def rd16 (l : List Byte) (o : Nat) : Nat := rd8 l o + 256 * rd8 l (o + 1)

/-- R177: the field of four bytes at an offset. -/
def rd32 (l : List Byte) (o : Nat) : Nat :=
  rd8 l o + 256 * rd8 l (o + 1) + 65536 * rd8 l (o + 2) + 16777216 * rd8 l (o + 3)

/-! ### The check -/

/-- R161: one bit fed to the check register: shift up, and invert bits 0, 5 and 12 when the bit differs
from register bit 15. -/
def checkBit (reg : BitVec 16) (bit : Bool) : BitVec 16 :=
  if (bit != reg.getLsbD 15) = true then (reg <<< 1) ^^^ 0x1021#16 else reg <<< 1

/-- R161: one byte fed, its least significant bit first. -/
def checkByte (reg : BitVec 16) (b : Byte) : BitVec 16 :=
  [0, 1, 2, 3, 4, 5, 6, 7].foldl (fun r i => checkBit r (b.getLsbD i)) reg

/-- R161: the register after the covered bytes, started with every bit set. -/
def check (covered : List Byte) : BitVec 16 := covered.foldl checkByte 0xFFFF#16

/-- R161: the two check bytes: register bits 15 to 8, then bits 7 to 0. -/
def checkBytes (covered : List Byte) : List Byte :=
  [(check covered).extractLsb' 8 8, (check covered).extractLsb' 0 8]

/-! ### The slab record (R177) -/

/-- R177: a slab id in its five bytes. -/
def encodeSlabId (id : SlabId) : List Byte := byte id.origin :: (w16 id.epoch ++ w16 id.seq)

/-- R177: the slab id at an offset. -/
def slabIdAt (l : List Byte) (o : Nat) : SlabId := ⟨rd8 l o, rd16 l (o + 1), rd16 l (o + 3)⟩

/-- R177: the state codes of the slab record; 0 ABSENT is for queries only (`encodeAbsentSlab`). -/
def slabStateCode : SlabState → Nat
  | .free => 1
  | .claimed => 2
  | .loaded => 3
  | .cut => 4
  | .scrapped => 5
  | .undefined code => code

/-- The slab state a code names; another code is taken as carried (R162). -/
def slabStateOf : Nat → SlabState
  | 1 => .free
  | 2 => .claimed
  | 3 => .loaded
  | 4 => .cut
  | 5 => .scrapped
  | code => .undefined code

/-- R1: a record shows its slab held when it is CLAIMED or LOADED. -/
def showsHeld : SlabState → Bool
  | .claimed => true
  | .loaded => true
  | _ => false

/-- R177: one defect in eight bytes. -/
def encodeDefect (d : Defect) : List Byte := w16 d.x ++ w16 d.y ++ w16 d.length ++ w16 d.width

/-- R177: the defect at an offset. -/
def defectAt (l : List Byte) (o : Nat) : Defect :=
  ⟨rd16 l o, rd16 l (o + 2), rd16 l (o + 4), rd16 l (o + 6)⟩

/-- R177: the flags byte, bit 0 edge kind, bit 1 scored. -/
def slabFlags (r : SlabRecord) : Nat :=
  (match r.edge with | .raw => 0 | .cut => 1) + (if r.scored = true then 2 else 0)

/-- R177: an absent parent id is sent as zero. -/
def encodeParent : Option SlabId → List Byte
  | none => [0, 0, 0, 0, 0]
  | some id => encodeSlabId id

/-- R177: the slab record, 30 bytes and 8 for each defect. -/
def encodeSlab (r : SlabRecord) : List Byte :=
  encodeSlabId r.id ++ encodeParent r.parent
    ++ [byte (slabStateCode r.state), byte (slabFlags r), byte r.cls, byte r.thickness]
    ++ w16 r.length ++ w16 r.width ++ [byte (r.holder.getD 0)] ++ w16 (r.job.getD 0)
    ++ [byte (r.priority.getD 0), byte r.place] ++ w16 r.version ++ w32 r.value
    ++ [byte r.defects.length] ++ r.defects.flatMap encodeDefect

/-- R157, R177: the record a query in quiet mode is answered with for a slab that is not in the view: state 0 ABSENT,
and every field zero but the id asked for. -/
def encodeAbsentSlab (id : SlabId) : List Byte := encodeSlabId id ++ List.replicate 25 0

/-- R177: how many bytes a slab record takes. -/
def slabSize (r : SlabRecord) : Nat := 30 + 8 * r.defects.length

/-- R177: an absent optional field is sent as zero, so a zero field reads as absent. -/
def optField (n : Nat) : Option Nat := if n = 0 then none else some n

/-- R177: a parent id of zeros reads as absent. -/
def optParent (id : SlabId) : Option SlabId := if id = ⟨0, 0, 0⟩ then none else some id

/-- R1, R177: a claim priority of 0 is one that is present exactly when the record shows the slab held; any other is
taken as carried. -/
def carriedPriority (st : SlabState) (n : Nat) : Option Nat := if showsHeld st = true then some n else optField n

/-- R162, R177: the slab record at the head of a list, its fields as carried. -/
def decodeSlab (l : List Byte) : SlabRecord :=
  { id := slabIdAt l 0, parent := optParent (slabIdAt l 5), cls := rd8 l 12,
    thickness := rd8 l 13, length := rd16 l 14, width := rd16 l 16,
    edge := if rd8 l 11 % 2 = 0 then .raw else .cut,
    defects := (List.range (rd8 l 29)).map fun k => defectAt l (30 + 8 * k),
    value := rd32 l 25, state := slabStateOf (rd8 l 10), holder := optField (rd8 l 18),
    job := optField (rd16 l 19), priority := carriedPriority (slabStateOf (rd8 l 10)) (rd8 l 21),
    place := rd8 l 22, version := rd16 l 23, scored := decide (rd8 l 11 / 2 % 2 = 1) }

/-- Several slab records in order. -/
def decodeSlabs : Nat → List Byte → List SlabRecord
  | 0, _ => []
  | n + 1, l => decodeSlab l :: decodeSlabs n (l.drop (30 + 8 * rd8 l 29))

/-- R162: `n` slab records of at most four defects each end exactly at the end of the bytes. -/
def slabsFit : Nat → List Byte → Bool
  | 0, l => l.isEmpty
  | n + 1, l =>
    decide (30 ≤ l.length) && decide (rd8 l 29 ≤ 4) && decide (30 + 8 * rd8 l 29 ≤ l.length)
      && slabsFit n (l.drop (30 + 8 * rd8 l 29))

/-! ### The plan record (R177) -/

/-- R177: the plan record's header, 9 bytes. -/
def encodePlanHeader (h : PlanHeader) : List Byte :=
  encodeSlabId h.slab ++ w16 h.chargeJob ++ [byte h.steps, byte h.leaves]

/-- R177: the axis codes, 1 X, 2 Y. -/
def axisCode : Axis → Nat
  | .x => 1
  | .y => 2

/-- The axis a code names. -/
def axisOf : Nat → Option Axis
  | 1 => some .x
  | 2 => some .y
  | _ => none

/-- R177: the leaf kind codes. -/
def leafKindCode : LeafKind → Nat
  | .piece => 1
  | .remnant => 2
  | .waste => 3

/-- The leaf kind a code names. -/
def leafKindOf : Nat → Option LeafKind
  | 1 => some .piece
  | 2 => some .remnant
  | 3 => some .waste
  | _ => none

/-- R177: a step entry, 4 bytes. -/
def encodePlanStep (s : PlanStep) : List Byte := [byte s.region, byte (axisCode s.axis)] ++ w16 s.offset

/-- R177: a leaf entry, 6 bytes, bit 7 of its kind byte the demoted mark. -/
def encodePlanLeaf (f : PlanLeaf) : List Byte :=
  [byte f.region, byte (leafKindCode f.kind + if f.demoted = true then 128 else 0)] ++ w16 f.job ++ w16 f.tag

/-- R177: the plan record: header, step entries, leaf entries. -/
def encodePlan (h : PlanHeader) (steps : List PlanStep) (leaves : List PlanLeaf) : List Byte :=
  encodePlanHeader h ++ steps.flatMap encodePlanStep ++ leaves.flatMap encodePlanLeaf

/-- R177: a staged step as an entry of the plan record. -/
def encodeStagedStep (s : StagedStep) : List Byte := [byte s.region, byte (axisCode s.axis)] ++ w16 s.offset

/-- R177: a staged leaf as an entry of the plan record; no leaf is demoted before PLAN-END. -/
def encodeStagedLeaf (f : StagedLeaf) : List Byte :=
  [byte f.region, byte (leafKindCode f.kind)] ++ w16 f.job ++ w16 f.tag

/-- R34, R177: the staging buffer as a plan record: the header as given, the steps and leaves received so far. -/
def encodeStaging (g : Staging) : List Byte :=
  encodePlanHeader g.header ++ g.steps.flatMap encodeStagedStep ++ g.leaves.flatMap encodeStagedLeaf

/-! ### The cost log record (R177) -/

/-- R177: the disposition codes. -/
def dispositionCode : Disposition → Nat
  | .totals => 1
  | .late => 2
  | .noEntry => 3

/-- R177: the cost log record, 40 bytes. -/
def encodeLogRecord (r : LogRecord) : List Byte :=
  [byte (match r.kind with | .cut => 1 | .slab => 2), byte (dispositionCode r.disposition)] ++ w16 r.job
    ++ encodeSlabId r.slabId ++ [byte r.step] ++ w32 r.time ++ w32 r.water ++ w32 r.wear ++ w32 r.slab
    ++ w32 r.volume ++ w16 r.length ++ w32 r.shopTime ++ w32 0

/-! ### Notices and line frames (R160, R175) -/

/-- R175: the kind codes. -/
def kindCode : Notice → Nat
  | .yardIn _ => 1
  | .claim _ _ => 2
  | .lapse _ _ => 3
  | .free _ _ _ => 4
  | .load _ _ => 5
  | .split _ _ => 6
  | .scrap _ _ => 7
  | .stockAsk => 8
  | .stockState _ => 9
  | .draw _ _ _ => 10
  | .plant _ _ _ _ => 11
  | .waterOverride => 12
  | .tally _ => 13
  | .jobOpen _ => 14
  | .jobClose _ => 15
  | .restart => 16

/-- R175: the codes of a FREE's reason. -/
def reasonCode : FreeReason → Nat
  | .released => 1
  | .unloaded => 2
  | .orphan => 3
  | .forced => 4
  | .undefined code => code

/-- The reason a code names; another code is taken as carried (R162). -/
def reasonOf : Nat → FreeReason
  | 1 => .released
  | 2 => .unloaded
  | 3 => .orphan
  | 4 => .forced
  | code => .undefined code

/-- R175: the stock head: reason, precondition version, number of records. -/
def stockHead (reason pre records : Nat) : List Byte := byte reason :: (w16 pre ++ [byte records])

/-- A flag in a byte of its own, or as a bit. -/
def bit (b : Bool) : Nat := if b = true then 1 else 0

/-- R175: the payload of a notice. -/
def encodePayload : Notice → List Byte
  | .yardIn r => stockHead 0 0 1 ++ encodeSlab r
  | .claim p r => stockHead 0 p 1 ++ encodeSlab r
  | .lapse p r => stockHead 0 p 1 ++ encodeSlab r
  | .free why p r => stockHead (reasonCode why) p 1 ++ encodeSlab r
  | .load p r => stockHead 0 p 1 ++ encodeSlab r
  | .split p rs => stockHead 0 p rs.length ++ rs.flatMap encodeSlab
  | .scrap p r => stockHead 0 p 1 ++ encodeSlab r
  | .stockAsk => []
  | .stockState rs => stockHead 0 0 rs.length ++ rs.flatMap encodeSlab
  | .draw q l g => [byte q, byte (bit l), byte g]
  | .plant c f st sl => w16 c ++ [byte f, byte (bit st + 2 * bit sl)]
  | .waterOverride => []
  | .tally t =>
    w16 t.job ++ w32 t.time ++ w32 t.water ++ w32 t.wear ++ w32 t.slab ++ w32 t.volume ++ w32 t.length
      ++ w16 t.pieces
  | .jobOpen j => w16 j
  | .jobClose j => w16 j
  | .restart => []

/-- R160: the frame of one notice or fragment. -/
def encodeFrame (sender index count : Nat) (n : Notice) : List Byte :=
  let covered :=
    [byte sender, byte (kindCode n), byte (16 * index + count), byte (encodePayload n).length]
      ++ encodePayload n
  0xB4#8 :: (covered ++ checkBytes covered)

/-- R175: the payload has the length its kind's layout requires; a kind that is no notice kind has no layout. -/
def layoutFits (kind : Nat) (payload : List Byte) : Bool :=
  if kind = 6 ∨ kind = 9 then
    decide (4 ≤ payload.length) && decide (1 ≤ rd8 payload 3) && slabsFit (rd8 payload 3) (payload.drop 4)
  else if kind = 1 ∨ kind = 2 ∨ kind = 3 ∨ kind = 4 ∨ kind = 5 ∨ kind = 7 then
    decide (4 ≤ payload.length) && decide (rd8 payload 3 = 1) && slabsFit 1 (payload.drop 4)
  else if kind = 8 ∨ kind = 12 ∨ kind = 16 then payload.isEmpty
  else if kind = 10 then decide (payload.length = 3)
  else if kind = 11 then decide (payload.length = 4)
  else if kind = 13 then decide (payload.length = 28)
  else if kind = 14 ∨ kind = 15 then decide (payload.length = 2)
  else true

/-- R162: which check a frame fails. -/
inductive FrameFault where
  | length | check | kind | sender | fragment
deriving DecidableEq, Repr

/-- R162: index and count lie in 1 to 8, the index is not above the count, and only SPLIT and STOCK-STATE have
a count above 1. -/
def fragmentOk (kind index count : Nat) : Bool :=
  decide (1 ≤ index) && decide (index ≤ count) && decide (count ≤ 8)
    && (decide (count = 1) || decide (kind = 6) || decide (kind = 9))

/-- R162: the checks in their order: the first that a frame fails. -/
def frameFault (l : List Byte) : Option FrameFault :=
  if l.getD 0 0#8 ≠ 0xB4#8 ∨ l.length < 7 ∨ 128 < rd8 l 4 ∨ l.length ≠ 7 + rd8 l 4
      ∨ layoutFits (rd8 l 2) ((l.drop 5).take (rd8 l 4)) = false then some .length
  else if l.drop (5 + rd8 l 4) ≠ checkBytes ((l.drop 1).take (4 + rd8 l 4)) then some .check
  else if rd8 l 2 = 0 ∨ 16 < rd8 l 2 then some .kind
  else if rd8 l 1 = 0 ∨ 30 < rd8 l 1 then some .sender
  else if fragmentOk (rd8 l 2) (rd8 l 3 / 16) (rd8 l 3 % 16) = false then some .fragment
  else none

/-- R162, R175: the notice a payload of a kind spells, its fields as carried; none for a kind that is no notice
kind. Of the lock flag's byte only bit 0 is read (R177; log 12). -/
def decodePayload (kind : Nat) (p : List Byte) : Option Notice :=
  match kind with
  | 1 => some (.yardIn (decodeSlab (p.drop 4)))
  | 2 => some (.claim (rd16 p 1) (decodeSlab (p.drop 4)))
  | 3 => some (.lapse (rd16 p 1) (decodeSlab (p.drop 4)))
  | 4 => some (.free (reasonOf (rd8 p 0)) (rd16 p 1) (decodeSlab (p.drop 4)))
  | 5 => some (.load (rd16 p 1) (decodeSlab (p.drop 4)))
  | 6 => some (.split (rd16 p 1) (decodeSlabs (rd8 p 3) (p.drop 4)))
  | 7 => some (.scrap (rd16 p 1) (decodeSlab (p.drop 4)))
  | 8 => some .stockAsk
  | 9 => some (.stockState (decodeSlabs (rd8 p 3) (p.drop 4)))
  | 10 => some (.draw (rd8 p 0) (decide (rd8 p 1 % 2 = 1)) (rd8 p 2))
  | 11 => some (.plant (rd16 p 0) (rd8 p 2) (decide (rd8 p 3 % 2 = 1)) (decide (rd8 p 3 / 2 % 2 = 1)))
  | 12 => some .waterOverride
  | 13 =>
    some (.tally ⟨rd16 p 0, rd32 p 2, rd32 p 6, rd32 p 10, rd32 p 14, rd32 p 18, rd32 p 22, rd16 p 26⟩)
  | 14 => some (.jobOpen (rd16 p 0))
  | 15 => some (.jobClose (rd16 p 0))
  | 16 => some .restart
  | _ => none

/-- What an accepted frame carries: sender, fragment index, fragment count and notice; none for a frame that
R162 drops. -/
def decodeFrame (l : List Byte) : Option (Nat × Nat × Nat × Notice) :=
  match frameFault l with
  | some _ => none
  | none =>
    match decodePayload (rd8 l 2) ((l.drop 5).take (rd8 l 4)) with
    | some n => some (rd8 l 1, rd8 l 3 / 16, rd8 l 3 % 16, n)
    | none => none

/-- R162, R175, on the typed notice: its payload fits in 128 bytes and has the shape its kind requires. -/
def noticeFits : Notice → Bool
  | .yardIn r => decide (r.defects.length ≤ 4)
  | .claim _ r => decide (r.defects.length ≤ 4)
  | .lapse _ r => decide (r.defects.length ≤ 4)
  | .free _ _ r => decide (r.defects.length ≤ 4)
  | .load _ r => decide (r.defects.length ≤ 4)
  | .scrap _ r => decide (r.defects.length ≤ 4)
  | .split _ rs =>
    !rs.isEmpty && rs.all (fun r => decide (r.defects.length ≤ 4)) && decide (4 + (rs.map slabSize).sum ≤ 128)
  | .stockState rs =>
    !rs.isEmpty && rs.all (fun r => decide (r.defects.length ≤ 4)) && decide (4 + (rs.map slabSize).sum ≤ 128)
  | _ => true

/-! ### The line test (R174) -/

/-- R174: the TEST frame of a station, 23 bytes. -/
def testFrame (station : Nat) : List Byte :=
  let covered :=
    [byte station, byte 17, byte 17, byte 16] ++ (List.range 16).map fun i => byte (16 * i + (15 - i))
  0xB4#8 :: (covered ++ checkBytes covered)

/-- R174: the position, from 1, of the first byte of `sent` that differs in `back` or is missing there. -/
def firstDifference : List Byte → List Byte → Option Nat
  | [], _ => none
  | _ :: _, [] => some 1
  | a :: as, b :: bs => if a = b then (firstDifference as bs).map (· + 1) else some 1

/-! ### The machine port (R178, R185) -/

/-- R178: a frame of the machine port. -/
def portFrame (type : Nat) (body : List Byte) : List Byte :=
  let covered := w16 body.length ++ byte type :: body
  0x5A#8 :: (covered ++ checkBytes covered)

/-- R179: the bytes from the first start mark on; those before it are discarded. -/
def fromMark (l : List Byte) : List Byte := l.dropWhile fun b => decide (b ≠ 0x5A#8)

/-- R179: the bytes of a frame, from its start mark, whose length field is above 1024, or whose check, once it has been
received, differs: the frame is dropped. -/
def portFrameBad (l : List Byte) : Bool :=
  decide (1024 < rd16 l 1)
    || (decide (6 + rd16 l 1 ≤ l.length)
        && decide ((l.drop (4 + rd16 l 1)).take 2 ≠ checkBytes ((l.drop 1).take (3 + rd16 l 1))))

/-- R185: the command types. -/
def cmdCode : Cmd → Nat
  | .status => 0x01
  | .querySlab => 0x02
  | .queryJob => 0x03
  | .stockList => 0x04
  | .logRead => 0x05
  | .faultRead => 0x06
  | .faultAck => 0x07
  | .clear => 0x08
  | .lineTest => 0x09
  | .configWrite => 0x0A
  | .claim => 0x20
  | .release => 0x21
  | .load => 0x22
  | .unload => 0x23
  | .planBegin => 0x24
  | .planPart => 0x25
  | .planEnd => 0x26
  | .planDrop => 0x27
  | .planAbort => 0x28
  | .cutAsk => 0x29
  | .cutHalted => 0x2A
  | .cutDone => 0x2B
  | .bladeChange => 0x2C
  | .park => 0x2D
  | .unpark => 0x2E
  | .queryPlan => 0x2F
  | .plantReport => 0x40
  | .yardIn => 0x60
  | .scrap => 0x61
  | .forceFree => 0x62
  | .jobOpen => 0x63
  | .jobClose => 0x64
  | .waterOverride => 0x65

/-- R178: the type of the reply to a command type. To a type of 80 hexadecimal or above the sum is taken in its one
byte (DESIGN CHOICE, log 28). -/
def replyType (type : Nat) : Nat := (type + 0x80) % 256

/-- R189: the status codes. -/
def statusCode : Status → Nat
  | .ok => 0
  | .busy => 1
  | .wrongRole => 2
  | .wrongState => 3
  | .unknown => 4
  | .stale => 5
  | .lost => 6
  | .holding => 7
  | .full => 8
  | .lineLost => 9
  | .silent => 10
  | .badField => 11
  | .wrongSlab => 12
  | .tooLarge => 13
  | .badRegion => 14
  | .offGrid => 15
  | .outOfRegion => 16
  | .leafMissing => 17
  | .leafExtra => 18
  | .defectInPiece => 19
  | .jobClosed => 20
  | .idExhausted => 21
  | .waitParked => 22
  | .waitPriming => 23
  | .waitStop => 24
  | .waitBlade => 25
  | .waitWater => 26
  | .kerfMismatch => 27
  | .pass => 28
  | .fail => 29

/-- R184: the types of the signals. -/
def signalType : Signal → Nat
  | .preempted _ => 0xF1
  | .lapsed _ => 0xF2
  | .clearToCut _ => 0xF3
  | .halt _ _ => 0xF4
  | .logHigh _ => 0xF5
  | .fault _ _ _ => 0xF6
  | .water _ _ _ _ _ _ => 0xF7

/-! ### The configuration record (R193) -/

/-- R193: offset of the blade table entry of a type. -/
def bladeOffset (t : Nat) : Nat := 3 + 19 * t

/-- R193: the blade table entry of a type. -/
def bladeTypeAt (l : List Byte) (t : Nat) : BladeType :=
  let b := bladeOffset t
  { f0 := rd16 l b, q := rd8 l (b + 2), qmin := rd8 l (b + 3), kerf := rd8 l (b + 4),
    wear1 := rd16 l (b + 5), wear2 := rd16 l (b + 7), wear3 := rd16 l (b + 9), wear4 := rd16 l (b + 11),
    newHeight := rd16 l (b + 13), wornLimit := rd16 l (b + 15), price := rd16 l (b + 17) }

/-- R193: the eight blade types. -/
def bladeTypes : List Nat := [0, 1, 2, 3, 4, 5, 6, 7]

/-- The low end, the value and the high end in order. -/
def within (lo n hi : Nat) : Bool := decide (lo ≤ n) && decide (n ≤ hi)

/-- R72, R193: the fields of one blade type with their offsets: in range, the worn limit below the new
segment height. -/
def bladeChecks (l : List Byte) (t : Nat) : List (Nat × Bool) :=
  let b := bladeOffset t
  let e := bladeTypeAt l t
  [(b, within 100 e.f0 3000), (b + 2, within 10 e.q 200), (b + 3, within 30 e.qmin 100),
    (b + 4, within 20 e.kerf 60), (b + 5, within 0 e.wear1 5000), (b + 7, within 0 e.wear2 5000),
    (b + 9, within 0 e.wear3 5000), (b + 11, within 0 e.wear4 5000), (b + 13, within 200 e.newHeight 2000),
    (b + 15, within 50 e.wornLimit 500 && decide (e.wornLimit < e.newHeight)),
    (b + 17, within 0 e.price 10000)]

/-- R193: the first 254 bytes added, modulo 65536. -/
def recordSum (l : List Byte) : Nat := ((l.take 254).map BitVec.toNat).sum % 65536

/-- R193: every field of the record with its offset, in record order, and whether it is acceptable; a
cross-field condition stands at the later of its fields, the sum at its own offset. A broken order of the four plant
marks stands at the later of the two marks that break it, and not always at the high mark (DESIGN CHOICE, log 45). -/
def recordChecks (l : List Byte) : List (Nat × Bool) :=
  [(0, decide (rd8 l 0 = 0x3C)), (1, within 1 (rd8 l 1) 30), (2, within 1 (rd8 l 2) 3)]
    ++ bladeTypes.flatMap (bladeChecks l)
    ++ [(155, within 1 (rd8 l 155) 50), (156, within 0 (rd16 l 156) 500),
      (158, within 1000 (rd16 l 158) 40000), (160, within 1000 (rd16 l 160) 25000),
      (162, within 30 (rd16 l 162) 600), (164, within 0 (rd8 l 164) 255),
      (165, within 0 (rd16 l 165) 2000),
      (167, within 0 (rd16 l 167) 2000 && decide (rd16 l 165 ≤ rd16 l 167)),
      (169, within 0 (rd16 l 169) 1000),
      (171, within 0 (rd16 l 171) 1000 && decide (rd16 l 169 < rd16 l 171)),
      (173, within 0 (rd16 l 173) 1000 && decide (rd16 l 171 ≤ rd16 l 173)),
      (175, within 0 (rd16 l 175) 1000 && decide (rd16 l 173 < rd16 l 175)),
      (177, within 0 (rd16 l 177) 2000), (179, within 1 (rd16 l 179) 2000),
      (181, within 30 (rd16 l 181) 500
        && bladeTypes.all fun t => decide (rd16 l 181 ≤ (bladeTypeAt l t).f0)),
      (183, within 0 (rd32 l 183) 100000), (187, within 0 (rd32 l 187) 100000),
      (191, within 0 (rd32 l 191) 100000), (195, within 1 (rd8 l 195) 128),
      (196, within 1 (rd8 l 196) 2), (197, within 2 (rd8 l 197) 30),
      (254, decide (rd16 l 254 = recordSum l))]

/-- R193: the offset of the first field found wrong, in record order. -/
def firstWrong (l : List Byte) : Option Nat := ((recordChecks l).find? fun c => !c.2).map (·.1)

/-- R193: the record as fields. -/
def decodeConfig (l : List Byte) : ConfigRecord :=
  { station := rd8 l 1,
    role := if rd8 l 2 = 1 then .saw else if rd8 l 2 = 2 then .plant else .console,
    blades := bladeTypes.map (bladeTypeAt l), grid := rd8 l 155, trim := rd16 l 156,
    minLength := rd16 l 158, minWidth := rd16 l 160, claimWindow := rd16 l 162, drawCeiling := rd8 l 164,
    fallback := rd16 l 165, maxCapacity := rd16 l 167, stopMark := rd16 l 169, resumeMark := rd16 l 171,
    lowMark := rd16 l 173, highMark := rd16 l 175, allowance := rd16 l 177, changeStep := rd16 l 179,
    feedFloor := rd16 l 181, machineRate := rd32 l 183, recycledPrice := rd32 l 187,
    freshPrice := rd32 l 191, logThreshold := rd8 l 195,
    unknownMode := if rd8 l 196 = 1 then .report else .quiet, primeTime := rd8 l 197,
    epoch := rd16 l 198 }

/-- R194, R195: the record with its boot epoch field set to `e`, and the sum adjusted by the change in those
two bytes. -/
def withEpoch (l : List Byte) (e : Nat) : List Byte :=
  let sum := (rd16 l 254 + 65536 + (byte e).toNat + (byte (e / 256)).toNat - rd8 l 198 - rd8 l 199) % 65536
  (((l.set 198 (byte e)).set 199 (byte (e / 256))).set 254 (byte sum)).set 255 (byte (sum / 256))

/-- R194: the successor of a boot epoch: 1 after 0 and after 65535. -/
def epochSucc (e : Nat) : Nat := if e = 0 ∨ e = 65535 then 1 else e + 1

end Sys2Proof.Machine
end

