-- ==== Sys2Proof/Decode.lean ====
section
/-! DEFINITION. Reading bytes as commands and events: the command frames of the machine port (R178, R185) and the
frames of the shop line (R160, R162, R175), each total and rejecting what it cannot read. The opcode table gives no
row any bits, so no word spells a command. -/

namespace Sys2Proof

open Machine

/-- The command a word spells by the table's bits: the table gives no bits to any row. -/
def decodeTableWord (_nbits _w : Nat) : Option Instr := none

/-! ### Command frames -/

/-- R36, R177: step entries at the head of a list. -/
def stepEntries : Nat → List Byte → List StepEntry
  | 0, _ => []
  | n + 1, l => ⟨rd8 l 0, rd8 l 1, rd16 l 2⟩ :: stepEntries n (l.drop 4)

/-- R36, R177: leaf entries at the head of a list; the kind is bits 0 and 1 of its byte. -/
def leafEntries : Nat → List Byte → List LeafEntry
  | 0, _ => []
  | n + 1, l => ⟨rd8 l 0, rd8 l 1 % 4, rd16 l 2, rd16 l 4⟩ :: leafEntries n (l.drop 6)

/-- R180, test 3, and R185: the command a type and a body spell; none when the type is no command's or the body
has not the length its fields require. A CONFIG-WRITE is a command at that length alone. -/
def portCommand (type : Nat) (b : List Byte) : Option Instr :=
  let n := b.length
  match type with
  | 0x01 => if n = 0 then some .status else none
  | 0x02 => if n = 5 then some (.querySlab (slabIdAt b 0)) else none
  | 0x03 => if n = 2 then some (.queryJob (rd16 b 0)) else none
  | 0x04 => if n = 2 then some (.stockList (rd8 b 0) (rd8 b 1)) else none
  | 0x05 => if n = 1 then some (.logRead (rd8 b 0)) else none
  | 0x06 => if n = 0 then some .faultRead else none
  | 0x07 => if n = 2 then some (.faultAck (rd16 b 0)) else none
  | 0x08 => if n = 0 then some .clear else none
  | 0x09 => if n = 0 then some .lineTest else none
  | 0x0A => if n = 256 then some (.configWrite b) else none
  | 0x20 => if n = 8 then some (.claim (slabIdAt b 0) (rd16 b 5) (rd8 b 7)) else none
  | 0x21 => if n = 5 then some (.release (slabIdAt b 0)) else none
  | 0x22 => if n = 5 then some (.load (slabIdAt b 0)) else none
  | 0x23 => if n = 0 then some .unload else none
  | 0x24 => if n = 9 then some (.planBegin ⟨slabIdAt b 0, rd16 b 5, rd8 b 7, rd8 b 8⟩) else none
  | 0x25 =>
    if 2 ≤ n ∧ n = 2 + 4 * rd8 b 0 + 6 * rd8 b 1 then
      some (.planPart (stepEntries (rd8 b 0) (b.drop 2)) (leafEntries (rd8 b 1) (b.drop (2 + 4 * rd8 b 0))))
    else none
  | 0x26 => if n = 0 then some .planEnd else none
  | 0x27 => if n = 0 then some .planDrop else none
  | 0x28 => if n = 2 then some (.planAbort (rd16 b 0)) else none
  | 0x29 => if n = 0 then some .cutAsk else none
  | 0x2A => if n = 2 then some (.cutHalted (rd16 b 0)) else none
  | 0x2B => if n = 2 then some (.cutDone (rd16 b 0)) else none
  | 0x2C => if n = 7 then some (.bladeChange (rd8 b 0) (rd32 b 1) (rd16 b 5)) else none
  | 0x2D => if n = 0 then some .park else none
  | 0x2E => if n = 0 then some .unpark else none
  | 0x2F => if n = 0 then some .queryPlan else none
  | 0x40 => if n = 6 then some (.plantReport (rd16 b 0) (rd16 b 2) (rd16 b 4)) else none
  | 0x60 =>
    if 11 ≤ n ∧ n = 11 + 8 * rd8 b 6 then
      some (.yardIn (rd8 b 0) (rd8 b 1) (rd16 b 2) (rd16 b 4)
        ((List.range (rd8 b 6)).map fun k => defectAt b (7 + 8 * k)) (rd32 b (7 + 8 * rd8 b 6)))
    else none
  | 0x61 => if n = 5 then some (.scrap (slabIdAt b 0)) else none
  | 0x62 => if n = 5 then some (.forceFree (slabIdAt b 0)) else none
  | 0x63 => if n = 2 then some (.jobOpen (rd16 b 0)) else none
  | 0x64 => if n = 2 then some (.jobClose (rd16 b 0)) else none
  | 0x65 => if n = 0 then some .waterOverride else none
  | _ => none

/-- R179, R180: the command or event that the bytes of a frame, from its start mark to its end, are: a frame whose length
or check is bad is dropped; a type or body that is no command's is UNKNOWN_COMMAND_TYPE. -/
def frameEvent (l : List Byte) : Instr :=
  if portFrameBad l = true then .commandFrameDropped l false
  else
    match portCommand (rd8 l 3) ((l.drop 4).take (rd16 l 1)) with
    | some c => c
    | none => .unknownCommandType (byte (rd8 l 3)) ((l.drop 4).take (rd16 l 1))

/-- R179: a byte from the controller, and whether a gap of more than ten character times has come before it. -/
structure PortByte where
  gap : Bool
  byte : Byte
deriving DecidableEq, Repr

/-- R179: bytes that have come without a gap. -/
def ungapped (l : List Byte) : List PortByte := l.map (⟨false, ·⟩)

/-- R179: what is received of a frame after a byte met while a start mark is looked for: another byte is discarded. -/
def seekMark (b : Byte) : List Byte := if b = 0x5A#8 then [b] else []

/-- R179: what is received of a frame, from its start mark, is its whole: its last check byte has arrived, or its length
field is above 1024, at whose last byte it is dropped (DESIGN CHOICE, log 36). -/
def frameEnds (l : List Byte) : Bool :=
  decide (3 ≤ l.length) && (decide (1024 < rd16 l 1) || decide (l.length = 6 + rd16 l 1))

/-- R179: the events that bytes from the controller are, `got` of a frame having been received: a frame is taken at its
last check byte, and a gap within one drops it. After either, the next start mark is looked for. -/
def portReceive (got : List Byte) : List PortByte → List Instr
  | [] => []
  | b :: bs =>
    if got = [] then portReceive (seekMark b.byte) bs
    else if b.gap = true then .commandFrameDropped got true :: portReceive (seekMark b.byte) bs
    else if frameEnds (got ++ [b.byte]) = true then frameEvent (got ++ [b.byte]) :: portReceive [] bs
    else portReceive (got ++ [b.byte]) bs

/-- R179: the commands and events that bytes from the controller are, in their order, between frames at first. After
power-on too: a start mark in the rest of a frame that was arriving then (R191) is not told from a new frame's (DESIGN
CHOICE, log 43). -/
def portEvents (l : List PortByte) : List Instr := portReceive [] l

/-- R179: the first command or event that bytes received without a gap are; none while no frame has come to its end. -/
def portEvent (l : List Byte) : Option Instr := (portEvents (ungapped l)).head?

/-! ### Line frames -/

/-- R163, R175: the event of a notice heard. -/
def noticeEvent (sender index count : Nat) : Notice → Instr
  | .yardIn r => .yardInNotice sender r
  | .claim p r => .claimNotice sender p r
  | .lapse p r => .lapseNotice sender p r
  | .free why p r => .freeNotice sender why p r
  | .load p r => .loadNotice sender p r
  | .split p rs => .splitNotice sender index count p rs
  | .scrap p r => .scrapNotice sender p r
  | .stockAsk => .stockAskNotice sender
  | .stockState rs => .stockStateNotice sender index count rs
  | .draw q l g => .drawNotice sender q l g
  | .plant c f st sl => .plantNotice sender c f st sl
  | .waterOverride => .waterOverrideNotice sender
  | .tally t => .tallyNotice sender t
  | .jobOpen j => .jobOpenNotice sender j
  | .jobClose j => .jobCloseNotice sender j
  | .restart => .restartNotice sender

/-- R162, R163: the event that the bytes of a frame on the line are: every frame is dropped or accepted
(`lineEvent_isSome`). -/
def lineEvent (l : List Byte) : Option Instr :=
  match frameFault l with
  | some _ => some (.frameDropped l)
  | none => (decodeFrame l).map fun f => noticeEvent f.1 f.2.1 f.2.2.1 f.2.2.2

/-- R159: what the line brings a receiver: a byte, or the end of 20 bit times of quiet. -/
inductive LineInput where
  | byte (b : Byte)
  | quiet
deriving DecidableEq, Repr

/-- R159: what a receiver of the line holds. -/
inductive LineReceiver where
  /-- bytes are discarded to the next quiet interval -/
  | untilQuiet
  /-- the bytes of a frame received so far; with none, the next byte begins a frame -/
  | taking (got : List Byte)
deriving DecidableEq, Repr

/-- R159: a frame is in progress, whose end is still to come. -/
def LineReceiver.midFrame : LineReceiver → Bool
  | .untilQuiet => false
  | .taking got => !got.isEmpty

/-- R159, R162: with what has been received of a frame the receiver has done: its first byte is not the start mark, its
payload length is above 128, or its last check byte has arrived. That the first two are counted at that byte, and not at
the quiet interval the rest is discarded to, is the model's choice (DESIGN CHOICE, log 37). -/
def lineFrameEnds (l : List Byte) : Bool :=
  decide (l.getD 0 0#8 ≠ 0xB4#8)
    || (decide (5 ≤ l.length) && (decide (128 < rd8 l 4) || decide (l.length = 7 + rd8 l 4)))

/-- R159, R162: the event at the end of a frame's bytes. -/
def lineFrameEvent (l : List Byte) : Instr := (lineEvent l).getD (.frameDropped l)

/-- R159: the events that the line brings a receiver, in their order: each at the end of a frame, or, of one cut short,
at the quiet interval that ends it. -/
def lineReceive : LineReceiver → List LineInput → List Instr
  | _, [] => []
  | .untilQuiet, .byte _ :: l => lineReceive .untilQuiet l
  | .untilQuiet, .quiet :: l => lineReceive (.taking []) l
  | .taking got, .quiet :: l =>
    if got = [] then lineReceive (.taking []) l else lineFrameEvent got :: lineReceive (.taking []) l
  | .taking got, .byte b :: l =>
    if lineFrameEnds (got ++ [b]) = true then lineFrameEvent (got ++ [b]) :: lineReceive .untilQuiet l
    else lineReceive (.taking (got ++ [b])) l

/-- R159: bytes that have come without a quiet interval between them. -/
def lineBytes (l : List Byte) : List LineInput := l.map .byte

/-! ### Commands as frames -/

/-- R185: the command an instruction is; none for an event. -/
def commandOf : Instr → Option Cmd
  | .status => some .status
  | .querySlab _ => some .querySlab
  | .queryJob _ => some .queryJob
  | .stockList _ _ => some .stockList
  | .logRead _ => some .logRead
  | .faultRead => some .faultRead
  | .faultAck _ => some .faultAck
  | .clear => some .clear
  | .lineTest => some .lineTest
  | .configWrite _ => some .configWrite
  | .claim _ _ _ => some .claim
  | .release _ => some .release
  | .load _ => some .load
  | .unload => some .unload
  | .planBegin _ => some .planBegin
  | .planPart _ _ => some .planPart
  | .planEnd => some .planEnd
  | .planDrop => some .planDrop
  | .planAbort _ => some .planAbort
  | .cutAsk => some .cutAsk
  | .cutHalted _ => some .cutHalted
  | .cutDone _ => some .cutDone
  | .bladeChange _ _ _ => some .bladeChange
  | .park => some .park
  | .unpark => some .unpark
  | .queryPlan => some .queryPlan
  | .plantReport _ _ _ => some .plantReport
  | .yardIn _ _ _ _ _ _ => some .yardIn
  | .scrap _ => some .scrap
  | .forceFree _ => some .forceFree
  | .jobOpen _ => some .jobOpen
  | .jobClose _ => some .jobClose
  | .waterOverride => some .waterOverride
  | .unknownCommandType _ _ => none
  | .commandFrameDropped _ _ => none
  | .outputFrameSent => none
  | .yardInNotice _ _ => none
  | .claimNotice _ _ _ => none
  | .lapseNotice _ _ _ => none
  | .freeNotice _ _ _ _ => none
  | .loadNotice _ _ _ => none
  | .splitNotice _ _ _ _ _ => none
  | .scrapNotice _ _ _ => none
  | .stockAskNotice _ => none
  | .stockStateNotice _ _ _ _ => none
  | .drawNotice _ _ _ _ => none
  | .plantNotice _ _ _ _ _ => none
  | .waterOverrideNotice _ => none
  | .tallyNotice _ _ => none
  | .jobOpenNotice _ _ => none
  | .jobCloseNotice _ _ => none
  | .restartNotice _ => none
  | .frameDropped _ => none
  | .duplicateNumber => none
  | .quietWaitElapsed _ => none
  | .cleanEcho => none
  | .echoMismatch => none
  | .deferralEnd => none
  | .lineTestEnd _ => none
  | .claimWindowExpiry => none
  | .orphanWatchExpiry _ => none
  | .primingEnd => none
  | .refreshTimerExpiry => none
  | .ageTimerExpiry _ => none
  | .plantHeardTimerExpiry => none
  | .reportTimerExpiry => none
  | .announceTimerExpiry => none
  | .powerOn => none
  | .autoload _ => none
  | .epochWriteBack _ => none
  | .configRecordWrite _ => none

/-- R177, R185: a step entry of a PLAN-PART. -/
def encodeStepEntry (e : StepEntry) : List Byte := byte e.region :: byte e.axis :: w16 e.offset

/-- R177, R185: a leaf entry of a PLAN-PART. -/
def encodeLeafEntry (e : LeafEntry) : List Byte := byte e.region :: byte e.kind :: (w16 e.job ++ w16 e.tag)

/-- R185: the body of a command, its fields in order; an event has none. -/
def commandBody : Instr → List Byte
  | .status => []
  | .querySlab id => encodeSlabId id
  | .queryJob job => w16 job
  | .stockList start filter => [byte start, byte filter]
  | .logRead count => [byte count]
  | .faultRead => []
  | .faultAck kinds => w16 kinds
  | .clear => []
  | .lineTest => []
  | .configWrite record => record
  | .claim id job priority => encodeSlabId id ++ w16 job ++ [byte priority]
  | .release id => encodeSlabId id
  | .load id => encodeSlabId id
  | .unload => []
  | .planBegin header => encodePlanHeader header
  | .planPart steps leaves =>
    byte steps.length :: byte leaves.length :: (steps.flatMap encodeStepEntry ++ leaves.flatMap encodeLeafEntry)
  | .planEnd => []
  | .planDrop => []
  | .planAbort length => w16 length
  | .cutAsk => []
  | .cutHalted length => w16 length
  | .cutDone length => w16 length
  | .bladeChange type serial height => byte type :: (w32 serial ++ w16 height)
  | .park => []
  | .unpark => []
  | .queryPlan => []
  | .plantReport level clarifier makeup => w16 level ++ w16 clarifier ++ w16 makeup
  | .yardIn cls thickness length width defects value =>
    [byte cls, byte thickness] ++ w16 length ++ w16 width
      ++ byte defects.length :: (defects.flatMap encodeDefect ++ w32 value)
  | .scrap id => encodeSlabId id
  | .forceFree id => encodeSlabId id
  | .jobOpen job => w16 job
  | .jobClose job => w16 job
  | .waterOverride => []
  | .unknownCommandType _ _ => []
  | .commandFrameDropped _ _ => []
  | .outputFrameSent => []
  | .yardInNotice _ _ => []
  | .claimNotice _ _ _ => []
  | .lapseNotice _ _ _ => []
  | .freeNotice _ _ _ _ => []
  | .loadNotice _ _ _ => []
  | .splitNotice _ _ _ _ _ => []
  | .scrapNotice _ _ _ => []
  | .stockAskNotice _ => []
  | .stockStateNotice _ _ _ _ => []
  | .drawNotice _ _ _ _ => []
  | .plantNotice _ _ _ _ _ => []
  | .waterOverrideNotice _ => []
  | .tallyNotice _ _ => []
  | .jobOpenNotice _ _ => []
  | .jobCloseNotice _ _ => []
  | .restartNotice _ => []
  | .frameDropped _ => []
  | .duplicateNumber => []
  | .quietWaitElapsed _ => []
  | .cleanEcho => []
  | .echoMismatch => []
  | .deferralEnd => []
  | .lineTestEnd _ => []
  | .claimWindowExpiry => []
  | .orphanWatchExpiry _ => []
  | .primingEnd => []
  | .refreshTimerExpiry => []
  | .ageTimerExpiry _ => []
  | .plantHeardTimerExpiry => []
  | .reportTimerExpiry => []
  | .announceTimerExpiry => []
  | .powerOn => []
  | .autoload _ => []
  | .epochWriteBack _ => []
  | .configRecordWrite _ => []

/-- R178, R185: the type and body of a command. -/
def encodeCommand (i : Instr) : Option (Nat × List Byte) :=
  (commandOf i).map fun c => (cmdCode c, commandBody i)

/-- R178: the frame of a command. -/
def commandFrame (i : Instr) : Option (List Byte) := (encodeCommand i).map fun c => portFrame c.1 c.2

end Sys2Proof
end

