-- ==== Sys2Proof/Machine/Flags.lean ====
section
/-! DEFINITION. The fault flags of R198: reading, setting and clearing them by kind and by the bits of FAULT-ACK. -/

namespace Sys2Proof.Machine

/-- R198: the flag of a kind. -/
def flagOf (f : FaultFlags) : FaultKind → Bool
  | .configRead => f.configRead
  | .configBad => f.configBad
  | .epochWrite => f.epochWrite
  | .dupStation => f.dupStation
  | .lineLost => f.lineLost
  | .stockFull => f.stockFull
  | .jobFull => f.jobFull
  | .logFull => f.logFull
  | .plantSilent => f.plantSilent
  | .plantStale => f.plantStale
  | .overdraw => f.overdraw

/-- R198: the flags with that of one kind set. -/
def setFlag (f : FaultFlags) : FaultKind → FaultFlags
  | .configRead => { f with configRead := true }
  | .configBad => { f with configBad := true }
  | .epochWrite => { f with epochWrite := true }
  | .dupStation => { f with dupStation := true }
  | .lineLost => { f with lineLost := true }
  | .stockFull => { f with stockFull := true }
  | .jobFull => { f with jobFull := true }
  | .logFull => { f with logFull := true }
  | .plantSilent => { f with plantSilent := true }
  | .plantStale => { f with plantStale := true }
  | .overdraw => { f with overdraw := true }

/-- R185: the bit of FAULT-ACK's field that names a kind: bit 0 CONFIG_READ, up to bit 10 OVERDRAW. -/
def faultBit : FaultKind → Nat
  | .configRead => 0
  | .configBad => 1
  | .epochWrite => 2
  | .dupStation => 3
  | .lineLost => 4
  | .stockFull => 5
  | .jobFull => 6
  | .logFull => 7
  | .plantSilent => 8
  | .plantStale => 9
  | .overdraw => 10

/-- R198: each flag a FAULT-ACK names is cleared. The bits above 10 name nothing and are not read. -/
def clearFlags (kinds : Nat) (f : FaultFlags) : FaultFlags :=
  { configRead := f.configRead && !kinds.testBit 0
    configBad := f.configBad && !kinds.testBit 1
    epochWrite := f.epochWrite && !kinds.testBit 2
    dupStation := f.dupStation && !kinds.testBit 3
    lineLost := f.lineLost && !kinds.testBit 4
    stockFull := f.stockFull && !kinds.testBit 5
    jobFull := f.jobFull && !kinds.testBit 6
    logFull := f.logFull && !kinds.testBit 7
    plantSilent := f.plantSilent && !kinds.testBit 8
    plantStale := f.plantStale && !kinds.testBit 9
    overdraw := f.overdraw && !kinds.testBit 10 }

end Sys2Proof.Machine
end

