-- ==== Sys2Proof/Machine/Ops.lean ====
section
/-! DEFINITION. The operations every unit shares: reading the configuration, the output list of the machine
port (R183), command answers (R182), raising a fault (R198), and the outgoing queue with its waiters
(R164, R165). -/

namespace Sys2Proof.Machine

/-! ### The configuration in force -/

/-- The configuration record in force; before any has been taken into use it reads as blank (log 4). -/
def State.cfg (s : State) : ConfigRecord := s.boot.config.getD ConfigRecord.blank

/-- The station's own number. -/
def State.station (s : State) : Nat := s.cfg.station

/-- R185: the role taken from the record at the last autoload. -/
def State.role (s : State) : Role := s.cfg.role

/-- R197: shop time as it stands. -/
def State.now (s : State) : Nat := s.boot.shopTime

/-- R71: the blade table entry of the mounted blade's type. -/
def State.bladeType (s : State) : BladeType := s.cfg.blades.getD s.cut.blade.type BladeType.blank

/-- The station has joined the line and hears it (R159, R192): RUNNING or LISTEN-ONLY. -/
def State.joined (s : State) : Bool :=
  decide (s.boot.runState = .running) || decide (s.boot.runState = .listenOnly)

/-- Every unit works and its timers run (R192): not in STARTING or CONFIG FAULT. -/
def State.inService (s : State) : Bool := s.joined || decide (s.boot.runState = .loopback)

/-- R164: the outgoing queue holds up to 12 notices. -/
def queueMax : Nat := 12

/-- R181: READY is asserted. -/
def State.ready (s : State) : Bool :=
  (s.joined || decide (s.boot.runState = .configFault)) && s.port.outstanding.isNone
    && decide (s.line.queue.length < queueMax)

/-! ### The output list -/

/-- A WATER signal, of which only the newest stays in the list (R183). -/
def isWater : PortFrame → Bool
  | .signal (.water _ _ _ _ _ _) => true
  | _ => false

/-- A signal, as against a reply. -/
def isSignal : PortFrame → Bool
  | .signal _ => true
  | .reply _ => false

/-- R183: a signal not yet begun, which a reply may displace. -/
def displaceable (e : OutEntry) : Bool := isSignal e.frame && !e.begun

/-- The first entry that is not held back begins its transmission. -/
def beginFirst : List OutEntry → List OutEntry
  | [] => []
  | e :: es => if e.held = true then e :: beginFirst es else { e with begun := true } :: es

/-- R183: frames are transmitted oldest first, each whole: with nothing on the wire the oldest frame not held
back begins. -/
def startTransmit (p : Port) : Port :=
  if p.txBusy = false ∧ (p.out.any fun e => !e.held) = true then
    { p with out := beginFirst p.out, txBusy := true }
  else p

/-- R183: the output list holds up to 16 frames. -/
def outMax : Nat := 16

/-- R183: the list after a reply is produced: with 16 frames in it the oldest signal not yet begun makes room
and the overrun mark is set; with no such signal the reply is added all the same. -/
def addReply (r : Reply) (p : Port) : Port :=
  if p.out.length < outMax then { p with out := p.out ++ [⟨.reply r, false, false⟩] }
  else if p.out.any displaceable = true then
    { p with out := p.out.eraseP displaceable ++ [⟨.reply r, false, false⟩], overrun := true }
  else { p with out := p.out ++ [⟨.reply r, false, false⟩] }

/-- R183: the list after a signal is produced: an earlier WATER gives way to a new one; with 16 frames in it
the new signal is discarded and the overrun mark is set; a signal of STARTING is held. -/
def addSignal (starting : Bool) (sg : Signal) (p : Port) : Port :=
  let out := if isWater (.signal sg) = true then p.out.filter fun e => !isWater e.frame else p.out
  if out.length < outMax then { p with out := out ++ [⟨.signal sg, false, starting⟩] }
  else { p with out := out, overrun := true }

/-- R184: a unit raises a signal. -/
def emit (sg : Signal) (s : State) : State :=
  { s with port := startTransmit (addSignal (decide (s.boot.runState = .starting)) sg s.port) }

/-- R182: a command that no owner keeps is answered at the event at which it is taken. -/
def replyNow (type : Nat) (st : Status) (body : ReplyBody) (s : State) : State :=
  { s with port := startTransmit (addReply ⟨replyType type, st, body⟩ s.port) }

/-- The reply to a command taken and answered in one event. -/
def reply (c : Cmd) (st : Status) (body : ReplyBody) (s : State) : State := replyNow (cmdCode c) st body s

/-- R182: the outstanding command, if one waits here, is answered and the flag cleared. -/
def answer (c : Option Cmd) (st : Status) (body : ReplyBody) (s : State) : State :=
  match c with
  | none => s
  | some c => reply c st body { s with port := { s.port with outstanding := none } }

/-- R182: an owner keeps a command outstanding. -/
def keep (c : Cmd) (s : State) : State := { s with port := { s.port with outstanding := some c } }

/-! ### Faults -/

/-- R198: a raise sets the kind's flag and replaces the last-fault entry; FAULT is signalled when the flag was
clear. -/
def raise (k : FaultKind) (detail : Nat) (s : State) : State :=
  { s with
    boot := { s.boot with
      faults := setFlag s.boot.faults k, lastFault := some ⟨k, s.boot.shopTime, detail⟩ }
    port :=
      if flagOf s.boot.faults k = true then s.port
      else startTransmit
        (addSignal (decide (s.boot.runState = .starting)) (.fault k detail s.boot.shopTime) s.port) }

/-! ### The outgoing queue and the waiter list -/

/-- R164: a fresh entry for a notice sent in one frame. -/
def entry (n : Notice) (cmd : Option Cmd) : QEntry :=
  { notice := n, index := 1, count := 1, cmd := cmd, attempts := 0, purpose := none, absorbed := false,
    second := false, batch := 0 }

/-- R165: one owner is on the list once for each separate cause; a waiter already there takes further notices
behind those it holds. -/
def addWaiter (cause : WaitCause) (es : List QEntry) : List Waiter → List Waiter
  | [] => [⟨cause, es⟩]
  | w :: ws =>
    if w.cause = cause then { w with notices := w.notices ++ es } :: ws else w :: addWaiter cause es ws

/-- R164, R165, R166: notices take the room there is in the queue, in order, and the rest wait; an idle line
unit begins its quiet wait. -/
def putNotices (cause : WaitCause) (es : List QEntry) (l : Line) : Line :=
  let room := queueMax - l.queue.length
  { l with
    queue := l.queue ++ es.take room
    waiters := if es.drop room = [] then l.waiters else addWaiter cause (es.drop room) l.waiters
    access := if l.access = .idle ∧ l.queue ++ es.take room ≠ [] then .waitQuiet else l.access }

/-- R173: an owner queues notices; in listen-only nothing is queued. -/
def queueNotices (cause : WaitCause) (es : List QEntry) (s : State) : State :=
  { s with line := if s.boot.listenOnly = true then s.line else putNotices cause es s.line }

/-- R165: when an entry leaves, the oldest waiter puts its next notice at the tail; with notices still to place
it moves to the end of the list. -/
def refill (l : Line) : Line :=
  match l.waiters with
  | [] => l
  | w :: ws =>
    match w.notices with
    | [] => { l with waiters := ws }
    | n :: rest =>
      { l with
        queue := l.queue ++ [n]
        waiters := if rest = [] then ws else ws ++ [{ w with notices := rest }] }

/-- R164, R166: the head leaves the queue, a waiter takes the freed entry, and the next entry becomes the head
in WAIT QUIET; an empty queue is IDLE. -/
def dropHead (l : Line) : Line :=
  let l' := refill { l with queue := l.queue.tail, driving := [] }
  { l' with access := if l'.queue = [] then .idle else .waitQuiet }

/-- R164: the head leaves the station's queue. -/
def leaveQueue (s : State) : State := { s with line := dropHead s.line }

/-- R180, R182: with an owner's checks passed, a command whose notice needs the line is answered SILENT in
listen-only and FULL while the queue holds 12 entries; otherwise it is queued and kept. -/
def queueCommand (c : Cmd) (n : Notice) (s : State) : State :=
  if s.boot.listenOnly = true then reply c .silent .none s
  else if queueMax ≤ s.line.queue.length then reply c .full .none s
  else keep c { s with line := putNotices .start [entry n (some c)] s.line }

/-- R176: a line counter rises by one and stays at its greatest value. -/
def countUp (n : Nat) : Nat := min (n + 1) 4294967295

/-- Every entry in the queue or with a waiter, in that order. -/
def allEntries (l : Line) : List QEntry := l.queue ++ l.waiters.flatMap (·.notices)

end Sys2Proof.Machine
end

