-- ==== Sys2Proof/Machine/Costing.lean ====
section
/-! DEFINITION. The costing unit: the job table and its creation rule (R142 to R144), charges and their
dispositions (R145, R146, R148), the cost log and its high-water mark (R153, R154, R156). -/

namespace Sys2Proof.Machine

/-- R142: the job table holds up to 64 entries. -/
def jobMax : Nat := 64

/-- R153: the cost log holds up to 128 records. -/
def logMax : Nat := 128

/-- R145: a cost total, a volume, a cut length and a late sum stay at this value. -/
def sumMax : Nat := 999999999

/-- The entry of a job in a job table. -/
def findJob (jobs : List JobEntry) (j : Nat) : Option JobEntry := jobs.find? fun e => decide (e.job = j)

/-- The station's entry for a job. -/
def State.jobEntry (s : State) (j : Nat) : Option JobEntry := findJob s.cost.jobs j

/-- The job is CLOSED in the station's view. -/
def jobClosed (jobs : List JobEntry) (j : Nat) : Bool :=
  match findJob jobs j with
  | some e => decide (e.state = .closed)
  | none => false

/-- R144: free entries plus CLOSED entries. -/
def jobRoom (jobs : List JobEntry) : Nat :=
  (jobMax - jobs.length) + (jobs.filter fun e => decide (e.state = .closed)).length

/-- R142: a new entry. -/
def newJob (j : Nat) (st : JobState) (now : Nat) : JobEntry :=
  { job := j, state := st, time := 0, water := 0, wear := 0, slab := 0, volume := 0, length := 0,
    carry := 0, pieces := 0, late := 0, gap := false, lastChange := now }

/-- R143: the creation rule on a job table; none when no entry is free or CLOSED. -/
def createIn (jobs : List JobEntry) (e : JobEntry) : Option (List JobEntry) :=
  if jobs.length < jobMax then some (jobs ++ [e])
  else if (jobs.any fun x => decide (x.state = .closed)) = true then
    some (jobs.eraseP (fun x => decide (x.state = .closed)) ++ [e])
  else none

/-- R143: an event requires a job to be created; JOB_FULL when it cannot be. -/
def createJob (j : Nat) (st : JobState) (s : State) : State :=
  match createIn s.cost.jobs (newJob j st s.now) with
  | some jobs => { s with cost := { s.cost with jobs := jobs } }
  | none => raise .jobFull j s

/-- A job is created OPEN when the station does not know it. -/
def ensureJob (j : Nat) (s : State) : State :=
  match s.jobEntry j with
  | some _ => s
  | none => createJob j .opened s

/-- A sum that saturates at 999,999,999 (R145). -/
def satAdd (a b : Nat) : Nat := min (a + b) sumMax

/-- R145: TOTALS on an OPEN entry: each amount to its total, the length through the carry. -/
def chargeTotals (t : Tally) (e : JobEntry) : JobEntry :=
  { e with
    time := satAdd e.time t.time
    water := satAdd e.water t.water
    wear := satAdd e.wear t.wear
    slab := satAdd e.slab t.slab
    volume := satAdd e.volume t.volume
    length := satAdd e.length ((e.carry + t.length) / 10)
    carry := (e.carry + t.length) % 10
    pieces := min (e.pieces + t.pieces) 65535 }

/-- R145: LATE on a CLOSED entry: the four costs to the late sum. -/
def chargeLate (t : Tally) (e : JobEntry) : JobEntry :=
  { e with late := satAdd e.late (t.time + t.water + t.wear + t.slab) }

/-- R145: a charge added to an entry in the disposition its state gives, at a shop time. -/
def chargeEntry (t : Tally) (now : Nat) (e : JobEntry) : JobEntry :=
  match e.state with
  | .opened => { chargeTotals t e with lastChange := now }
  | .closed => { chargeLate t e with lastChange := now }

/-- R145: the disposition an entry gives a charge. -/
def dispositionOf (e : JobEntry) : Disposition :=
  match e.state with
  | .opened => .totals
  | .closed => .late

/-- The job table with one job's entry changed in its place. -/
def mapJob (j : Nat) (f : JobEntry → JobEntry) (jobs : List JobEntry) : List JobEntry :=
  jobs.map fun e => if e.job = j then f e else e

/-- R146, R148: a charge is added to its job, which is first created OPEN if it is unknown; with no room for it
the amounts are lost. -/
def addCharge (t : Tally) (s : State) : State :=
  let s' := ensureJob t.job s
  { s' with cost := { s'.cost with jobs := mapJob t.job (chargeEntry t s.now) s'.cost.jobs } }

/-- R156: the high-water test after a record is added. -/
def highWaterAdded (s : State) : State :=
  if s.cost.armed = true ∧ s.cfg.logThreshold ≤ s.cost.log.length then
    emit (.logHigh s.cost.log.length) { s with cost := { s.cost with armed := false } }
  else s

/-- R154: a record is offered to the log; a full log loses it, marks the job's entry and raises LOG_FULL. -/
def offerLog (r : LogRecord) (s : State) : State :=
  if s.cost.log.length < logMax then
    highWaterAdded { s with cost := { s.cost with log := s.cost.log ++ [r] } }
  else
    raise .logFull r.job
      { s with cost := { s.cost with jobs := mapJob r.job (fun e => { e with gap := true }) s.cost.jobs } }

/-- R146, R153: where the job table puts a charge to a job, once the job has been created if it could be. -/
def chargeDisposition (j : Nat) (s : State) : Disposition :=
  match s.jobEntry j with
  | some e => dispositionOf e
  | none => .noEntry

/-- R146: an own charge: the job table takes it, then it offers one cost log record. `step` is 0 and `kind` SLAB
for a piece charge or the no-piece loss (R101). -/
def ownCharge (t : Tally) (kind : LogKind) (slabId : SlabId) (step : Nat) (s : State) : State :=
  offerLog
    { kind := kind, job := t.job, slabId := slabId, step := step, time := t.time, water := t.water,
      wear := t.wear, slab := t.slab, volume := t.volume, length := t.length, shopTime := s.now,
      disposition := chargeDisposition t.job (ensureJob t.job s) }
    (addCharge t s)

/-- R151: a state set on a known job; a change of state sets last change. -/
def setJobState (st : JobState) (now : Nat) (e : JobEntry) : JobEntry :=
  if e.state = st then e else { e with state := st, lastChange := now }

/-- R151: JOB-OPEN or JOB-CLOSE acts on the station's entry, or creates it. -/
def applyJobState (j : Nat) (st : JobState) (s : State) : State :=
  match s.jobEntry j with
  | some _ => { s with cost := { s.cost with jobs := mapJob j (setJobState st s.now) s.cost.jobs } }
  | none => createJob j st s

/-- R151, and R149 at the console that sent it. -/
def applyJobOpen (j : Nat) (cmd : Option Cmd) (s : State) : State :=
  let s' := applyJobState j .opened s
  match s'.jobEntry j with
  | some _ => answer cmd .ok .none s'
  | none => answer cmd .full .none s'

/-- R151, and R150 at the console that sent it: OK in every case. -/
def applyJobClose (j : Nat) (cmd : Option Cmd) (s : State) : State :=
  answer cmd .ok .none (applyJobState j .closed s)

/-- R147, R148: a TALLY of another station is added as one charge; job 0 is ignored, and so is an own TALLY on
its echo. -/
def applyTally (sender : Nat) (t : Tally) (s : State) : State :=
  if sender = s.station ∨ t.job = 0 then s else addCharge t s

/-- R155: LOG-READ removes the oldest records; below the threshold a disarmed mark is armed (R156). -/
def readLog (count : Nat) (s : State) : State :=
  let rest := s.cost.log.drop count
  { s with cost := { s.cost with
      log := rest
      armed := s.cost.armed || decide (rest.length < s.cfg.logThreshold) } }

/-- R156: the mark set anew against the threshold an autoload brings in. -/
def rearm (s : State) : State :=
  if s.cost.log.length < s.cfg.logThreshold then { s with cost := { s.cost with armed := true } }
  else emit (.logHigh s.cost.log.length) { s with cost := { s.cost with armed := false } }

end Sys2Proof.Machine
end

