-- ==== Sys2Proof/Machine/ChargeArithmetic.lean ====
section
/-! DEFINITION. The charge arithmetic of one segment (R80 to R93), stage by stage, as functions of numbers. -/

namespace Sys2Proof.Machine

/-- Section 6.1: floor of a quotient. A divisor of 0 arises only from values outside R81 (log 8). -/
def quot (a b : Nat) : Nat := if b = 0 then Config.quotientByZero a else a / b

/-- Section 6.1: ceil of a quotient. -/
def ceilQuot (a b : Nat) : Nat := if b = 0 then Config.quotientByZero a else (a + b - 1) / b

/-- Section 6.1: round-half-up of a quotient. -/
def roundQuot (a b : Nat) : Nat := if b = 0 then Config.quotientByZero a else (2 * a + b) / (2 * b)

/-- R82: the hardness percent of a material class. -/
def hardness (cls : Nat) : Nat :=
  if cls = 1 then 100 else if cls = 2 then 85 else if cls = 3 then 70 else if cls = 4 then 55
  else Config.hardnessOutside cls

/-- R72: the wear rate for a material class. -/
def wearRate (b : BladeType) (cls : Nat) : Nat :=
  if cls = 1 then b.wear1 else if cls = 2 then b.wear2 else if cls = 3 then b.wear3
  else if cls = 4 then b.wear4 else Config.wearRateOutside cls

/-- R82: stage 1, the nominal feed clamped to the range from the feed floor to F0. -/
def nominalFeed (b : BladeType) (floor thickness cls : Nat) : Nat :=
  max floor (min (quot (b.f0 * 20 * hardness cls) (thickness * 100)) b.f0)

/-- R83: stage 2, the feed of a seating segment halved, the floor its lower bound. -/
def seatedFeed (seating : Bool) (floor nominal : Nat) : Nat :=
  if seating = true then max floor (nominal / 2) else nominal

/-- R84: the minimum wetting flow. -/
def minWetting (b : BladeType) : Nat := ceilQuot (b.q * b.qmin) 100

/-- R84: the flow charged. -/
def usedGrant (b : BladeType) (grant : Nat) : Nat := min grant b.q

/-- R82 to R85: stages 1 to 3, the effective feed. -/
def effectiveFeed (b : BladeType) (floor thickness cls grant : Nat) (seating : Bool) : Nat :=
  max floor (quot (seatedFeed seating floor (nominalFeed b floor thickness cls) * usedGrant b grant) b.q)

/-- R86, R87: stage 4, the duration of a length at a feed. -/
def duration (length feed : Nat) : Nat := ceilQuot (length * 60) feed

/-- R88: stage 5, the volume charged. -/
def volume (usedFlow t : Nat) : Nat := ceilQuot (usedFlow * t) 200

/-- R89: stage 6, the wear accumulator. -/
def wearAccumulator (remainder length thickness rate : Nat) : Nat := remainder + length * thickness * rate

/-- R90: the price of the segment's water, per kilolitre. -/
def waterPrice (recycled fresh fraction : Nat) : Nat :=
  if fraction ≤ 100 then (recycled * (100 - fraction) + fresh * fraction) / 100
  else Config.waterPriceOutside fraction

/-- R91: the time cost. -/
def timeCost (rate t : Nat) : Nat := roundQuot (rate * t) 36000

/-- R91: the water cost. -/
def waterCost (v price : Nat) : Nat := roundQuot (v * price) 10000

/-- The results of stages 4 to 8 for one closed segment. -/
structure SegmentFigures where
  length : Nat
  duration : Nat
  volume : Nat
  wholeWear : Nat
  remainder : Nat
  time : Nat
  water : Nat
  wear : Nat
deriving DecidableEq, Repr

/-- R87 to R91: stages 4 to 7 worked on a charged length, the segment start values, the slab's class and
thickness, the blade's type and its wear remainder. -/
def segmentFigures (cfg : ConfigRecord) (b : BladeType) (seg : Segment) (remainder length thickness cls : Nat) :
    SegmentFigures :=
  let t := duration length seg.feed
  let v := volume (usedGrant b seg.grant) t
  let acc := wearAccumulator remainder length thickness (wearRate b cls)
  { length := length, duration := t, volume := v, wholeWear := acc / 10000000,
    remainder := acc % 10000000, time := timeCost cfg.machineRate t,
    water := waterCost v (waterPrice cfg.recycledPrice cfg.freshPrice seg.fresh),
    wear := acc / 10000000 * b.price }

/-- R91: the segment total. -/
def segmentTotal (f : SegmentFigures) : Nat := f.time + f.water + f.wear

end Sys2Proof.Machine
end

