-- ==== Sys2Proof/Machine/ValueSplit.lean ====
section
/-! DEFINITION. The division of a slab's value among its pieces and remnants (R94 to R100). -/

namespace Sys2Proof.Machine

/-- A PIECE outcome. -/
def isPiece (o : Outcome) : Bool :=
  match o.kind with
  | .piece _ _ => true
  | _ => false

/-- A REMNANT outcome. -/
def isRemnant (o : Outcome) : Bool :=
  match o.kind with
  | .remnant _ => true
  | _ => false

/-- A WASTE outcome. -/
def isWaste (o : Outcome) : Bool := decide (o.kind = .waste)

/-- R96, R97: the share of the parent's value that an outcome's area is of the full area; waste has none. -/
def directShare (value full : Nat) (o : Outcome) : Nat :=
  if isWaste o = true then 0 else quot (value * o.area) full

/-- The sum of a figure over the outcomes that are pieces. -/
def pieceSum (f : Outcome → Nat) (os : List Outcome) : Nat := ((os.filter isPiece).map f).sum

/-- R98: stage 3, the loss. -/
def splitLoss (value full : Nat) (os : List Outcome) : Nat := value - (os.map (directShare value full)).sum

/-- R99: the loss share of a piece before the remainder. -/
def lossShare (loss areas : Nat) (o : Outcome) : Nat := quot (loss * o.area) areas

/-- R99: the greatest area of a piece. -/
def largestPiece (os : List Outcome) : Nat := (os.filter isPiece).foldl (fun m o => max m o.area) 0

/-- R99: the remainder is added whole to the first piece, in order of leaf index, of the largest area. -/
def addRemainder (largest rem : Nat) : List Outcome → List Outcome
  | [] => []
  | o :: os =>
    if isPiece o = true ∧ o.area = largest then { o with amount := o.amount + rem } :: os
    else o :: addRemainder largest rem os

/-- R96 to R100: the outcomes with their values and piece charges, and the loss. -/
def splitValue (value full : Nat) (os : List Outcome) : SplitWork :=
  let loss := splitLoss value full os
  let areas := pieceSum (·.area) os
  let shared := os.map fun o =>
    { o with amount := directShare value full o + if isPiece o = true then lossShare loss areas o else 0 }
  { outcomes := addRemainder (largestPiece os) (loss - pieceSum (lossShare loss areas) os) shared
    loss := loss }

/-- R100: stage 5 runs when there is no piece outcome. -/
def noPieces (w : SplitWork) : Bool := !w.outcomes.any isPiece

end Sys2Proof.Machine
end

