-- ==== Sys2Proof/Machine/Plans.lean ====
section
/-! DEFINITION. The plan unit's geometry (R31, R32), its nine checks (R37 to R44), the plan as formed (R45, R46),
a remnant's defects (R47) and the resolution of a plan (R50, R52, R53). -/

namespace Sys2Proof.Machine

/-! ### Regions -/

/-- R31: region 1 of a slab at a trim. -/
def regionOne (slab : SlabRecord) (trim : Nat) : Region :=
  let t := match slab.edge with | .raw => trim | .cut => 0
  { number := 1, x := t, y := t, length := slab.length - 2 * t, width := slab.width - 2 * t, parent := 0,
    createdBy := 0, cutBy := none, leaf := none, status := .awaiting }

/-- The region of a number. -/
def findRegion (rs : List Region) (n : Nat) : Option Region := rs.find? fun r => decide (r.number = n)

/-- The extent of a region along an axis. -/
def extent (a : Axis) (r : Region) : Nat :=
  match a with
  | .x => r.length
  | .y => r.width

/-- R32: the cut length of a step on a region: its width for an X cut, its length for a Y cut. -/
def cutLength (a : Axis) (r : Region) : Nat :=
  match a with
  | .x => r.width
  | .y => r.length

/-- R32: region 2k, on the low side. -/
def lowChild (k : Nat) (a : Axis) (offset : Nat) (r : Region) : Region :=
  match a with
  | .x => { r with number := 2 * k, length := offset, parent := r.number, createdBy := k }
  | .y => { r with number := 2 * k, width := offset, parent := r.number, createdBy := k }

/-- R32: region 2k+1, on the high side of the kerf. -/
def highChild (k : Nat) (a : Axis) (offset kerf : Nat) (r : Region) : Region :=
  match a with
  | .x =>
    { r with number := 2 * k + 1, x := r.x + offset + kerf, length := r.length - offset - kerf,
             parent := r.number, createdBy := k }
  | .y =>
    { r with number := 2 * k + 1, y := r.y + offset + kerf, width := r.width - offset - kerf,
             parent := r.number, createdBy := k }

/-- R32: the regions of steps k, k+1, ... added in order to those already built. -/
def buildRegions (kerf : Nat) : Nat → List StagedStep → List Region → List Region
  | _, [], rs => rs
  | k, s :: ss, rs =>
    match findRegion rs s.region with
    | none => buildRegions kerf (k + 1) ss rs
    | some r =>
      buildRegions kerf (k + 1) ss
        (rs ++ [lowChild k s.axis s.offset r, highChild k s.axis s.offset kerf r])

/-- The step, from 1, that cuts a region. -/
def cutterOf (steps : List StagedStep) (n : Nat) : Option Nat :=
  (steps.findIdx? fun s => decide (s.region = n)).map (· + 1)

/-- The leaf index, from 1, of the leaf on a region. -/
def leafOn (leaves : List StagedLeaf) (n : Nat) : Option Nat :=
  (leaves.findIdx? fun f => decide (f.region = n)).map (· + 1)

/-! ### The checks of PLAN-END -/

/-- R37: a failed check: its code and its index. -/
abbrev CheckFault := Status × Nat

/-- R39: check 3, step by step from step k. -/
def checkRegions : Nat → List Nat → List StagedStep → Option CheckFault
  | _, _, [] => none
  | k, cut, s :: ss =>
    if s.region = 0 ∨ 2 * k - 1 < s.region ∨ s.region ∈ cut then some (.badRegion, k)
    else checkRegions (k + 1) (s.region :: cut) ss

/-- R40: check 4, step by step from step k. -/
def checkGrid (grid : Nat) : Nat → List StagedStep → Option CheckFault
  | _, [] => none
  | k, s :: ss => if s.offset % grid ≠ 0 then some (.offGrid, k) else checkGrid grid (k + 1) ss

/-- R40: the longest cut a saw station grants. -/
def longestCut : Nat := 35000

/-- R40: check 5 on the steps, building the regions as it goes. -/
def checkOffsets (kerf : Nat) : Nat → List StagedStep → List Region → Option CheckFault
  | _, [], _ => none
  | k, s :: ss, rs =>
    match findRegion rs s.region with
    | none => some (.outOfRegion, k)
    | some r =>
      if s.offset = 0 ∨ extent s.axis r ≤ s.offset + kerf ∨ longestCut < cutLength s.axis r then
        some (.outOfRegion, k)
      else
        checkOffsets kerf (k + 1) ss
          (rs ++ [lowChild k s.axis s.offset r, highChild k s.axis s.offset kerf r])

/-- R40: check 5: region 1 first, with index 0. -/
def checkInside (kerf : Nat) (steps : List StagedStep) (r1 : Region) : Option CheckFault :=
  if r1.length = 0 ∨ r1.width = 0 then some (.outOfRegion, 0) else checkOffsets kerf 1 steps [r1]

/-- R41: the first part of check 6, leaf by leaf from leaf i. -/
def checkLeafExtra (steps : List StagedStep) : Nat → List Nat → List StagedLeaf → Option CheckFault
  | _, _, [] => none
  | i, named, f :: fs =>
    if f.region = 0 ∨ 2 * steps.length + 1 < f.region ∨ (cutterOf steps f.region).isSome = true
        ∨ f.region ∈ named then some (.leafExtra, i)
    else checkLeafExtra steps (i + 1) (f.region :: named) fs

/-- R41: the second part of check 6: the uncut regions in ascending order. -/
def checkLeafMissing (steps : List StagedStep) (leaves : List StagedLeaf) : Option CheckFault :=
  ((List.range' 1 (2 * steps.length + 1)).find? fun n =>
      (cutterOf steps n).isNone && (leafOn leaves n).isNone).map fun n => (.leafMissing, n)

/-- R47: the intersection of a defect with a region, in slab coordinates, when it has positive extent on both
axes. -/
def intersect (d : Defect) (r : Region) : Option Defect :=
  let x0 := max d.x r.x
  let y0 := max d.y r.y
  let x1 := min (d.x + d.length) (r.x + r.length)
  let y1 := min (d.y + d.width) (r.y + r.width)
  if x0 < x1 ∧ y0 < y1 then some ⟨x0, y0, x1 - x0, y1 - y0⟩ else none

/-- R42: a region overlaps some defect with positive area. -/
def overlapsDefect (defects : List Defect) (r : Region) : Bool :=
  defects.any fun d => (intersect d r).isSome

/-- R42: check 7, the PIECE leaves in order from leaf i. -/
def checkDefects (defects : List Defect) (rs : List Region) : Nat → List StagedLeaf → Option CheckFault
  | _, [] => none
  | i, f :: fs =>
    match f.kind, findRegion rs f.region with
    | .piece, some r =>
      if overlapsDefect defects r = true then some (.defectInPiece, i) else checkDefects defects rs (i + 1) fs
    | _, _ => checkDefects defects rs (i + 1) fs

/-- R43: a region meets the minimum remnant size. -/
def meetsMinimum (minLength minWidth : Nat) (r : Region) : Bool :=
  decide (minLength ≤ r.length) && decide (minWidth ≤ r.width)

/-- R43: a leaf after demotion. -/
def demote (minLength minWidth : Nat) (rs : List Region) (f : StagedLeaf) : PlanLeaf :=
  let small := match findRegion rs f.region with
    | some r => !meetsMinimum minLength minWidth r
    | none => false
  let demoted := decide (f.kind = .remnant) && small
  { region := f.region, kind := if demoted = true then .waste else f.kind, job := f.job, tag := f.tag,
    demoted := demoted }

/-- The piece jobs of a plan in order of leaf index, with the index. -/
def pieceJobs (leaves : List PlanLeaf) : List (Nat × Nat) :=
  ((leaves.zipIdx 1).filter fun f => decide (f.1.kind = .piece)).map fun f => (f.1.job, f.2)

/-- The distinct numbers of a list, each at its first place. -/
def distinct : List Nat → List Nat
  | [] => []
  | n :: ns => n :: (distinct ns).filter fun m => !decide (m = n)

/-- R44: check 8: the first job found CLOSED, or more unknown jobs than there is room for. -/
def checkJobs (jobs : List JobEntry) (chargeJob : Nat) (leaves : List PlanLeaf) : Option CheckFault :=
  let named := (chargeJob, 0) :: pieceJobs leaves
  match named.find? fun j => jobClosed jobs j.1 with
  | some j => some (.jobClosed, j.2)
  | none =>
    if jobRoom jobs < ((distinct (named.map (·.1))).filter fun j => (findJob jobs j).isNone).length then
      some (.full, 0)
    else none

/-- R44: check 9: a sequence value for each remnant. -/
def checkIds (seqNext : Nat) (leaves : List PlanLeaf) : Option CheckFault :=
  if 65536 - seqNext < (leaves.filter fun f => decide (f.kind = .remnant)).length then
    some (.idExhausted, 0)
  else none

/-- R38: check 2: counts within limits and as declared. -/
def checkCounts (g : Staging) : Option CheckFault :=
  if 1 ≤ g.header.steps ∧ g.header.steps ≤ 24 ∧ 1 ≤ g.header.leaves ∧ g.header.leaves ≤ 25
      ∧ g.steps.length = g.header.steps ∧ g.leaves.length = g.header.leaves then none
  else some (.tooLarge, 0)

/-- The leaves of a staged plan after demotion (R43). -/
def demotedLeaves (cfg : ConfigRecord) (kerf : Nat) (slab : SlabRecord) (g : Staging) : List PlanLeaf :=
  g.leaves.map (demote cfg.minLength cfg.minWidth (buildRegions kerf 1 g.steps [regionOne slab cfg.trim]))

/-- R37: checks 2 to 9 in their order on the slab that check 1 has found, each over the whole plan before the
next begins: the first that fails. -/
def checkPlan (cfg : ConfigRecord) (kerf : Nat) (slab : SlabRecord) (jobs : List JobEntry) (seqNext : Nat)
    (g : Staging) : Option CheckFault :=
  let r1 := regionOne slab cfg.trim
  (checkCounts g).or <|
  (checkRegions 1 [] g.steps).or <|
  (checkGrid cfg.grid 1 g.steps).or <|
  (checkInside kerf g.steps r1).or <|
  (checkLeafExtra g.steps 1 [] g.leaves).or <|
  (checkLeafMissing g.steps g.leaves).or <|
  (checkDefects slab.defects (buildRegions kerf 1 g.steps [r1]) 1 g.leaves).or <|
  (checkJobs jobs g.header.chargeJob (demotedLeaves cfg kerf slab g)).or <|
  checkIds seqNext (demotedLeaves cfg kerf slab g)

/-- R45, R46: the plan as formed: region 1 WHOLE and every other region AWAITING. It holds the configured trim, also on
a slab of edge kind CUT, which is cut without one (DESIGN CHOICE, log 39). -/
def formPlan (cfg : ConfigRecord) (kerf : Nat) (slab : SlabRecord) (g : Staging) : Plan :=
  { header := g.header, kerf := kerf, trim := cfg.trim, minLength := cfg.minLength,
    minWidth := cfg.minWidth,
    steps := g.steps.map fun s => ⟨s.region, s.axis, s.offset, .pending, 0⟩,
    leaves := demotedLeaves cfg kerf slab g,
    regions := (buildRegions kerf 1 g.steps [regionOne slab cfg.trim]).map fun r =>
      { r with cutBy := cutterOf g.steps r.number, leaf := leafOn g.leaves r.number,
               status := if r.number = 1 then .whole else .awaiting }
    sums := ⟨0, 0, 0, 0, 0⟩, segments := 0, split := none }

/-! ### Steps of a plan -/

/-- R56: the next step, from 1: the lowest-numbered that is PENDING. -/
def nextPending (p : Plan) : Option Nat :=
  (p.steps.findIdx? fun s => decide (s.status = .pending)).map (· + 1)

/-- The step that is IN PROGRESS. -/
def currentStep (p : Plan) : Option Nat :=
  (p.steps.findIdx? fun s => decide (s.status = .inProgress)).map (· + 1)

/-- Step k. -/
def stepAt (p : Plan) (k : Nat) : Option PlanStep := if k = 0 then none else p.steps[k - 1]?

/-- R48: a step completed or a segment charged. -/
def cutBegun (p : Plan) : Bool :=
  decide (0 < p.segments) || p.steps.any fun s => decide (s.status = .done)

/-- Step k changed in its place. -/
def mapStep (k : Nat) (f : PlanStep → PlanStep) (p : Plan) : Plan :=
  if k = 0 then p else { p with steps := p.steps.modify (k - 1) f }

/-- A region's status changed. -/
def setRegion (n : Nat) (st : RegionStatus) (p : Plan) : Plan :=
  { p with regions := p.regions.map fun r => if r.number = n then { r with status := st } else r }

/-- R46: step k is granted. -/
def grantStep (k : Nat) (p : Plan) : Plan :=
  match stepAt p k with
  | some s => setRegion s.region .inCut (mapStep k (fun s => { s with status := .inProgress }) p)
  | none => p

/-- R46: a child of a done step comes into being: WHOLE if a step cuts it, LEAF otherwise. -/
def bringRegion (k : Nat) (r : Region) : Region :=
  if r.createdBy = k then
    { r with status := if r.cutBy.isSome = true then .whole else .leaf }
  else r

/-- R46, R63: step k becomes DONE, its region DIVIDED, and its children come into being. -/
def finishStep (k : Nat) (p : Plan) : Plan :=
  match stepAt p k with
  | some s =>
    let p' := setRegion s.region .divided (mapStep k (fun s => { s with status := .done }) p)
    { p' with regions := p'.regions.map (bringRegion k) }
  | none => p

/-- R59: the cut length of step k. -/
def stepCutLength (p : Plan) (k : Nat) : Nat :=
  match stepAt p k with
  | some s => match findRegion p.regions s.region with
    | some r => cutLength s.axis r
    | none => 0
  | none => 0

/-- The done length of step k. -/
def stepDone (p : Plan) (k : Nat) : Nat :=
  match stepAt p k with
  | some s => s.doneLength
  | none => 0

/-- R59: what remains of step k. -/
def stepRemaining (p : Plan) (k : Nat) : Nat := stepCutLength p k - stepDone p k

/-- R62, R69: a charged segment's length is added to its step, and its figures to the plan's sums. -/
def recordSegment (k : Nat) (f : SegmentFigures) (p : Plan) : Plan :=
  let p' := mapStep k (fun s => { s with doneLength := s.doneLength + f.length }) p
  { p' with
    sums := ⟨p.sums.time + f.time, p.sums.water + f.water, p.sums.wear + f.wear,
      p.sums.volume + f.volume, p.sums.length + f.length⟩
    segments := p.segments + 1 }

/-! ### Resolving a plan -/

/-- R95: an outcome's area, from the region table. -/
def regionArea (r : Region) : Nat := r.length * r.width

/-- R50: the outcome a leaf names. -/
def leafOutcomeKind (f : PlanLeaf) : OutcomeKind :=
  match f.kind with
  | .piece => .piece f.job f.tag
  | .remnant => .remnant false
  | .waste => .waste

/-- R50, R52: the outcomes of the leaves whose regions are LEAF, in order of leaf index. -/
def leafOutcomes (p : Plan) : List Outcome :=
  (p.leaves.zipIdx 1).filterMap fun f =>
    match findRegion p.regions f.1.region with
    | some r =>
      if r.status = .leaf then
        some { kind := leafOutcomeKind f.1, region := r.number, leaf := some f.2, area := regionArea r,
               amount := 0 }
      else none
    | none => none

/-- R52: the step that cuts a region has a done length above 0. -/
def regionScored (p : Plan) (r : Region) : Bool :=
  match r.cutBy with
  | some k => decide (0 < stepDone p k)
  | none => false

/-- R52: the outcome of a region that is WHOLE or IN CUT at the abort. -/
def standingOutcome (p : Plan) (r : Region) : Option Outcome :=
  let kind (scored : Bool) : OutcomeKind :=
    if meetsMinimum p.minLength p.minWidth r = true then .remnant scored else .waste
  match r.status with
  | .inCut =>
    some { kind := kind (regionScored p r), region := r.number, leaf := none, area := regionArea r, amount := 0 }
  | .whole => some { kind := kind false, region := r.number, leaf := none, area := regionArea r, amount := 0 }
  | _ => none

/-- R50, R52: the outcomes in the order handed to the value split: those of leaves by leaf index, then those of
WHOLE and IN CUT regions by region number. At completion there are none of the second kind. -/
def resolve (p : Plan) : List Outcome := leafOutcomes p ++ p.regions.filterMap (standingOutcome p)

/-- R53: the regions of the remnants, in ascending order of region number. -/
def remnantRegions (p : Plan) (os : List Outcome) : List Nat :=
  (p.regions.map (·.number)).filter fun n => os.any fun o => isRemnant o && decide (o.region = n)

/-- R53: the remnants that take an id when `ids` are left; each later one becomes waste. -/
def keepRemnants (kept : List Nat) (os : List Outcome) : List Outcome :=
  os.map fun o => if isRemnant o = true ∧ o.region ∉ kept then { o with kind := .waste } else o

/-- R47: the parent's defects clipped to a region and moved to its origin. -/
def remnantDefects (defects : List Defect) (r : Region) : List Defect :=
  defects.filterMap fun d => (intersect d r).map fun i => { i with x := i.x - r.x, y := i.y - r.y }

end Sys2Proof.Machine
end

