-- ==== Sys2Proof/Machine/CutUnit.lean ====
section
/-! DEFINITION. The cut unit's own operations: the checks of CUT-ASK (R57), the waiting mark (R61), changes of
the cut state (R55), and the opening of a segment with the reply that gives the cut (R59, R62). -/

namespace Sys2Proof.Machine

/-! ### What the cut unit reads -/

/-- The draw table entry of a station. -/
def findDraw (ds : List DrawEntry) (n : Nat) : Option DrawEntry := ds.find? fun d => decide (d.station = n)

/-- R106: the own entry; it is always present, and reads as request 0, grant 0, unlocked if it were not. -/
def State.ownDraw (s : State) : DrawEntry := (findDraw s.water.draws s.station).getD (DrawEntry.own s.station)

/-- R106: the own grant. -/
def State.ownGrant (s : State) : Nat := s.ownDraw.granted

/-- The stock table entry of a slab. -/
def findSlab (t : List StockEntry) (id : SlabId) : Option StockEntry := t.find? fun e => decide (e.slab.id = id)

/-- The station's view of a slab. -/
def State.slab (s : State) (id : SlabId) : Option SlabRecord := (findSlab s.stock.table id).map (·.slab)

/-- The record of the slab the cut state holds. -/
def State.heldSlab (s : State) : Option SlabRecord := s.cut.held.bind s.slab

/-- R55: from CLAIMED through SPLITTING the cut state holds a slab. -/
def State.cutHolds (s : State) (id : SlabId) : Bool :=
  decide (s.cut.state ≠ .empty) && decide (s.cut.held = some id)

/-- R108: the cut state is CUTTING or SUSPENDED, so the own DRAW carries the lock. -/
def midStep (c : CutState) : Bool := decide (c = .cutting) || decide (c = .suspended)

/-! ### The checks and the waiting mark -/

/-- R57: the five checks of a CUT-ASK in PLANNED, in order; none when all pass. -/
def waitReason (s : State) : Option Status :=
  if s.cut.parked = true then some .waitParked
  else if s.cut.priming.isSome = true then some .waitPriming
  else if s.water.stop = true then some .waitStop
  else if s.cut.blade.height ≤ s.bladeType.wornLimit then some .waitBlade
  else if s.ownGrant < minWetting s.bladeType then some .waitWater
  else none

/-- R61: the next step in PLANNED, the suspended step in SUSPENDED; 0 when there is no plan. -/
def stepToSignal (s : State) : Nat :=
  match s.plan.plan with
  | some p =>
    (if s.cut.state = .planned then nextPending p else currentStep p).getD 0
  | none => 0

/-- R61: the checks the mark waits for would all pass: those of R57 in PLANNED, no stop in SUSPENDED. -/
def markPasses (s : State) : Bool :=
  (decide (s.cut.state = .planned) && (waitReason s).isNone)
    || (decide (s.cut.state = .suspended) && !s.water.stop)

/-- R61: with the mark set and every check passing, CLEAR-TO-CUT is signalled and the mark cleared. -/
def evaluateMark (s : State) : State :=
  if s.cut.waiting = true ∧ markPasses s = true then
    emit (.clearToCut (stepToSignal s)) { s with cut := { s.cut with waiting := false } }
  else s

/-- R61: the mark is set, and its setting is itself an event of the evaluation. -/
def setMark (s : State) : State := evaluateMark { s with cut := { s.cut with waiting := true } }

/-! ### Changes of the cut state -/

/-- R61: the mark stands only in PLANNED and SUSPENDED. -/
def markStands (c : CutState) : Bool := decide (c = .planned) || decide (c = .suspended)

/-- R46, R188: a plan stands from its formation until the SPLIT's parent record is applied. -/
def planStands (c : CutState) : Bool := markStands c || decide (c = .cutting) || decide (c = .splitting)

/-- R55: the cut state changes. A segment is open in CUTTING alone (R62), the staging buffer in STAGING alone
(R34), a plan stands from PLANNED to SPLITTING, the waiting mark in PLANNED and SUSPENDED (R61). -/
def toCut (c : CutState) (s : State) : State :=
  { s with
    cut := { s.cut with
      state := c, waiting := s.cut.waiting && markStands c
      segment := if c = .cutting then s.cut.segment else none }
    plan :=
      { staging := if c = .staging then s.plan.staging else none
        plan := if planStands c = true then s.plan.plan else none } }

/-- R55: the cut state becomes EMPTY and holds no slab; staging, plan and open segment go with it. -/
def toEmpty (s : State) : State :=
  { s with
    cut := { s.cut with state := .empty, held := none, segment := none, waiting := false }
    plan := { staging := none, plan := none } }

/-- R14: the claim window stops, and any expiry held for it is discarded. -/
def stopWindow (s : State) : State := { s with stock := { s.stock with window := none, heldExpiry := false } }

/-! ### Opening a segment -/

/-- The thickness and class of the slab on the table; a slab absent from the view reads as class and thickness
0, which no reachable state shows (log 6). -/
def State.stone (s : State) : Nat × Nat :=
  match s.heldSlab with
  | some r => (r.thickness, r.cls)
  | none => (0, 0)

/-- R62: the start values of a segment on step k, opened now. -/
def startSegment (s : State) (p : Plan) (k : Nat) : Segment :=
  { step := k, doneBefore := stepDone p k, grant := s.ownGrant, fresh := s.water.fresh,
    seating := s.cut.blade.seating
    feed := effectiveFeed s.bladeType s.cfg.feedFloor s.stone.1 s.stone.2 s.ownGrant s.cut.blade.seating }

/-- R59: the cut given for a segment just opened on a plan. -/
def cutGrantOf (p : Plan) (seg : Segment) : Option CutGrant :=
  match stepAt p seg.step with
  | none => none
  | some st =>
    match findRegion p.regions st.region with
    | none => none
    | some r =>
      let remaining := stepRemaining p seg.step
      some
        { step := seg.step, axis := st.axis
          startX := match st.axis with | .x => r.x + st.offset | .y => r.x + seg.doneBefore
          startY := match st.axis with | .x => r.y + seg.doneBefore | .y => r.y + st.offset
          length := remaining, grant := seg.grant, feed := seg.feed
          duration := duration remaining seg.feed }

/-- R58, R60: step k's segment opens on plan p: the cut state becomes CUTTING, the waiting mark is cleared, and
the CUT-ASK `answerWith` answers is given the cut. -/
def openSegment (p : Plan) (k : Nat) (answerWith : ReplyBody → State → State) (s : State) : State :=
  let seg := startSegment s p k
  let s' := toCut .cutting
    { s with cut := { s.cut with segment := some seg }, plan := { s.plan with plan := some p } }
  answerWith (match cutGrantOf p seg with | some g => .cut g | none => .none) s'

/-- R58: the own locking DRAW has been applied: the next step is granted and its first segment opens. With no
plan in PLANNED left the CUT-ASK is answered LOST (log 13). -/
def grantCut (cmd : Option Cmd) (s : State) : State :=
  match s.plan.plan with
  | none => answer cmd .lost .none s
  | some p =>
    match nextPending p with
    | none => answer cmd .lost .none s
    | some k =>
      if s.cut.state = .planned then openSegment (grantStep k p) k (answer cmd .ok) s
      else answer cmd .lost .none s

end Sys2Proof.Machine
end

