-- ==== Sys2Proof/Machine/WaterUnit.lean ====
section
/-! DEFINITION. The water unit: own request (R107), queuing own DRAWs and absorbing them (R108, R116), applying
DRAW, PLANT and WATER-OVERRIDE (R109, R110, R120, R125), the fit rule (R111), the follow-ons (R112) with the
prompt check (R114) and OVERDRAW (R126), and the removal of entries (R117, R118, R122). -/

namespace Sys2Proof.Machine

/-! ### The draw table -/

/-- The sum of every grant. -/
def grantSum (ds : List DrawEntry) : Nat := (ds.map (·.granted)).sum

/-- The sum of the locked grants. -/
def lockedSum (ds : List DrawEntry) : Nat := grantSum (ds.filter (·.locked))

/-- The sum of the unlocked grants. -/
def unlockedSum (ds : List DrawEntry) : Nat := grantSum (ds.filter fun d => !d.locked)

/-- R109: others, the sum of the grants of every entry but one station's. -/
def othersSum (ds : List DrawEntry) (n : Nat) : Nat := grantSum (ds.filter fun d => !decide (d.station = n))

/-- R106: an entry takes its place in ascending order of station number, in place of any there. -/
def putDraw (d : DrawEntry) : List DrawEntry → List DrawEntry
  | [] => [d]
  | e :: es =>
    if d.station = e.station then d :: es
    else if d.station < e.station then d :: e :: es
    else e :: putDraw d es

/-- R111: the excess taken from the unlocked entries in descending order of station number, each reduced by the
lesser of its grant and the excess still to take. -/
def takeExcess : List DrawEntry → Nat → List DrawEntry × Nat
  | [], x => ([], x)
  | e :: es, x =>
    let rest := takeExcess es x
    if e.locked = true then (e :: rest.1, rest.2)
    else ({ e with granted := e.granted - min e.granted rest.2 } :: rest.1, rest.2 - min e.granted rest.2)

/-- R111: the fit rule on a table and a capacity. -/
def fitTable (capacity : Nat) (ds : List DrawEntry) : List DrawEntry :=
  (takeExcess ds (unlockedSum ds - (capacity - lockedSum ds))).1

/-- R111: the fit rule runs on the station's table. -/
def fit (s : State) : State :=
  { s with water := { s.water with draws := fitTable s.water.capacity s.water.draws } }

/-- R109: the grant a lock-clear DRAW gives. -/
def openGrant (capacity request others : Nat) : Nat := min request (capacity - others)

/-- R117: the age timer, 35 s. -/
def ageTicks : Nat := 350

/-- R109, R110: a station's entry after its DRAW is applied, before the fit rule. -/
def drawnEntry (own : Nat) (capacity : Nat) (ds : List DrawEntry) (sender request : Nat) (lock : Bool)
    (grant : Nat) : DrawEntry :=
  { station := sender, requested := request
    granted := if lock = true then min grant request
      else openGrant capacity request (othersSum ds sender)
    locked := lock
    age := if sender = own then none else some ageTicks }

/-! ### The own request and the own DRAWs -/

/-- R107: the own request as it is worked out now. -/
def workRequest (s : State) : Nat :=
  if s.role = .saw then if s.cut.parked = true then 0 else min s.bladeType.q s.cfg.drawCeiling else 0

/-- R108: an own DRAW other than a LOCK, which absorbs later ones. -/
def absorbs (e : QEntry) : Bool :=
  match e.purpose with
  | some .lock => false
  | some _ => true
  | none => false

/-- R108: an own DRAW absorbs another purpose and takes over the command that would have waited on it. -/
def absorbInto (purpose : DrawPurpose) (cmd : Option Cmd) (e : QEntry) : QEntry :=
  { e with
    absorbed := e.absorbed || decide (purpose = .refresh) || decide (purpose = .unlock)
    cmd := e.cmd.or cmd }

/-- The first entry that absorbs is changed in its place. -/
def absorbFirst (purpose : DrawPurpose) (cmd : Option Cmd) : List QEntry → List QEntry
  | [] => []
  | e :: es => if absorbs e = true then absorbInto purpose cmd e :: es else e :: absorbFirst purpose cmd es

/-- R108: an own DRAW other than a LOCK is queued or pending. -/
def drawWaiting (l : Line) : Bool := (allEntries l).any absorbs

/-- R108: the waiting own DRAW absorbs: one in the queue, or else the pending one. -/
def absorbDraw (purpose : DrawPurpose) (cmd : Option Cmd) (l : Line) : Line :=
  if l.queue.any absorbs = true then { l with queue := absorbFirst purpose cmd l.queue }
  else
    { l with
      waiters := l.waiters.map fun w =>
        if w.cause = .ownDraw then { w with notices := absorbFirst purpose cmd w.notices } else w }

/-- An entry for an own DRAW; its fields are fixed at each revalidation (R115). -/
def drawEntryFor (purpose : DrawPurpose) (cmd : Option Cmd) (s : State) : QEntry :=
  { entry (.draw s.water.ownRequest (decide (purpose = .lock))
      (if purpose = .lock then s.ownGrant else 0)) cmd with purpose := some purpose }

/-- R108, R116: an own DRAW other than a LOCK arises: a waiting one absorbs it, or it is queued, or held
pending while the queue is full; nothing in listen-only. -/
def queueDraw (purpose : DrawPurpose) (cmd : Option Cmd) (s : State) : State :=
  { s with
    line :=
      if s.boot.listenOnly = true then s.line
      else if drawWaiting s.line = true then absorbDraw purpose cmd s.line
      else putNotices .ownDraw [drawEntryFor purpose cmd s] s.line }

/-- R107: the own request is worked out again, and a DRAW is queued when it differs from the one the own entry
carries, in RUNNING and not listen-only. -/
def reworkRequest (cmd : Option Cmd) (s : State) : State :=
  let s' := { s with water := { s.water with ownRequest := workRequest s } }
  if s'.water.ownRequest ≠ s'.ownDraw.requested ∧ s.boot.runState = .running then
    queueDraw .request cmd s'
  else s'

/-! ### Follow-ons -/

/-- R126: the locked grants exceed capacity. -/
def overdrawn (w : Water) : Bool := decide (w.capacity < lockedSum w.draws)

/-- R126: OVERDRAW is evaluated; `by_` is the detail word when the condition begins. -/
def evaluateOverdraw (by_ : Nat) (s : State) : State :=
  if overdrawn s.water = true ∧ s.water.overdraw = false then
    raise .overdraw by_ { s with water := { s.water with overdraw := true } }
  else { s with water := { s.water with overdraw := overdrawn s.water } }

/-- R127: the WATER signal. -/
def waterSignal (s : State) : Signal :=
  .water s.ownGrant s.water.ownRequest s.ownDraw.locked s.water.capacity s.water.stop s.water.stale

/-- R112, step 2: WATER when the own grant differs from its value before the event. -/
def signalWater (grantBefore : Nat) (s : State) : State :=
  if s.ownGrant = grantBefore then s else emit (waterSignal s) s

/-- R65: the step of the open segment and its done length before the segment. -/
def haltSignal (s : State) : Signal :=
  match s.cut.segment with
  | some seg => .halt seg.step seg.doneBefore
  | none => .halt 0 0

/-- R65, R112, step 3: HALT when the stop became set in CUTTING. -/
def signalHalt (stopBefore : Bool) (s : State) : State :=
  if stopBefore = false ∧ s.water.stop = true ∧ s.cut.state = .cutting then emit (haltSignal s) s else s

/-- R114: the prompt check, after an event that freed water. -/
def promptCheck (freed : Bool) (s : State) : State :=
  if freed = true ∧ s.boot.runState = .running ∧ s.boot.listenOnly = false ∧ s.ownDraw.locked = false
      ∧ s.ownGrant < s.water.ownRequest then queueDraw .prompt none s
  else s

/-- R112: what the station does on the results of an event, in order; `before` is the state before the event,
`by_` the station whose notice it was, and `override` a WATER-OVERRIDE, after which R61 evaluates in any case. -/
def followOn (before : State) (by_ : Nat) (freed override : Bool) (s : State) : State :=
  let s1 := signalWater before.ownGrant (evaluateOverdraw by_ s)
  let s2 :=
    if s1.ownGrant ≠ before.ownGrant ∨ s1.water.stop ≠ before.water.stop ∨ override = true then
      evaluateMark s1
    else s1
  promptCheck freed (signalHalt before.water.stop s2)

/-! ### Applying the water notices -/

/-- R114: a DRAW of another station freed water: it left the grant lower, by a lower request or by an
unlocking. -/
def drawFreed (before : Option DrawEntry) (after : DrawEntry) : Bool :=
  match before with
  | none => false
  | some b =>
    decide (after.granted < b.granted)
      && (decide (after.requested < b.requested) || (b.locked && !after.locked))

/-- R109 to R112: a DRAW is applied: the entry, the fit rule, the follow-ons. -/
def applyDraw (sender request : Nat) (lock : Bool) (grant : Nat) (s : State) : State :=
  let d := drawnEntry s.station s.water.capacity s.water.draws sender request lock grant
  let s1 := fit { s with water := { s.water with
    draws := putDraw d s.water.draws
    refresh := if sender = s.station then some 100 else s.water.refresh } }
  followOn s sender
    (decide (sender ≠ s.station) && drawFreed (findDraw s.water.draws sender) d) false s1

/-- R120: a PLANT notice is applied. -/
def applyPlant (sender capacity fresh : Nat) (stop stale : Bool) (s : State) : State :=
  let c := min capacity s.cfg.maxCapacity
  let s1 := fit { s with water := { s.water with
    capacity := c, fresh := fresh, stop := stop, stale := stale, plantHeard := some 350,
    silent := false, lastPlant := sender } }
  followOn s sender (decide (s.water.capacity < c)) false s1

/-- R125: a WATER-OVERRIDE is applied; the command waiting on it at its console is answered (R124). -/
def applyOverride (cmd : Option Cmd) (s : State) : State :=
  answer cmd .ok .none (followOn s s.station false true { s with water := { s.water with stop := false } })

/-- R117, R118: a peer's entry is removed. -/
def removeDraw (n : Nat) (s : State) : State :=
  if n = s.station then s
  else
    followOn s n
      (match findDraw s.water.draws n with | some d => decide (0 < d.granted) | none => false) false
      { s with water := { s.water with draws := s.water.draws.filter fun d => !decide (d.station = n) } }

/-- R122: the plant is taken to be silent. -/
def plantSilent (s : State) : State :=
  let s1 := fit { s with water := { s.water with capacity := s.cfg.fallback, plantHeard := none } }
  let s2 := followOn s s.station (decide (s.water.capacity < s.cfg.fallback)) false s1
  raise .plantSilent s.water.lastPlant { s2 with water := { s2.water with silent := true } }

end Sys2Proof.Machine
end

