-- ==== Sys2Proof/Machine/StockUnit.lean ====
section
/-! DEFINITION. The stock unit: versions (R2), the table (R4, R5), the application of carried records by
precondition or by catch-up (R6 to R8) with the follow-ons of each kind (R12 to R25), RESTART (R26), STOCK-ASK
(R27), slab id issue (R29), and the claim window and orphan watch (R14, R16). -/

namespace Sys2Proof.Machine

/-! ### Versions and records -/

/-- R2: the successor of a version. -/
def versionSucc (v : Nat) : Nat := if v = 65535 then 1 else v + 1

/-- R2: version a is newer than version b when (a - b) mod 65536 lies in 1 to 32767. -/
def newer (a b : Nat) : Bool :=
  let d := (a + (65536 - b % 65536)) % 65536
  decide (1 ≤ d) && decide (d ≤ 32767)

/-- A record made FREE: holder, job and priority absent, place unchanged. -/
def madeFree (r : SlabRecord) : SlabRecord :=
  { r with state := .free, holder := none, job := none, priority := none }

/-- The same with the successor version. -/
def freedRecord (r : SlabRecord) : SlabRecord := { madeFree r with version := versionSucc r.version }

/-- R11: a record made CLAIMED. -/
def claimedRecord (own job priority : Nat) (r : SlabRecord) : SlabRecord :=
  { r with state := .claimed, holder := some own, job := some job, priority := some priority,
           version := versionSucc r.version }

/-- R18: a record made LOADED at this station. -/
def loadedRecord (own : Nat) (r : SlabRecord) : SlabRecord :=
  { r with state := .loaded, place := own, version := versionSucc r.version }

/-- R21: the parent record of a split. -/
def cutRecord (r : SlabRecord) : SlabRecord :=
  { madeFree r with state := .cut, version := versionSucc r.version }

/-- R24: a record made SCRAPPED. -/
def scrappedRecord (r : SlabRecord) : SlabRecord :=
  { r with state := .scrapped, version := versionSucc r.version }

/-- The record shows its slab CLAIMED or LOADED with a station as holder. -/
def heldBy (n : Nat) (r : SlabRecord) : Bool := showsHeld r.state && decide (r.holder = some n)

/-- R3: CUT and SCRAPPED are final, and such an entry may be evicted (R5). -/
def isHistory (r : SlabRecord) : Bool := decide (r.state = .cut) || decide (r.state = .scrapped)

/-! ### The table -/

/-- R4: the stock table holds up to 200 entries. -/
def stockMax : Nat := 200

/-- R16: how long this station's orphan watches run. -/
def watchTicks (s : State) : Nat := s.cfg.claimWindow * 10 + 600

/-- R8, R16: the watch that follows an entry's new state. -/
def watchFor (s : State) (r : SlabRecord) : Option Watch :=
  if r.state = .claimed then some ⟨watchTicks s, r.version⟩ else none

/-- R4: the entry of a slab changed in its place. -/
def setSlab (e : StockEntry) (t : List StockEntry) : List StockEntry :=
  t.map fun x => if x.slab.id = e.slab.id then e else x

/-- R5: a new slab takes a slot at the end, the oldest CUT or SCRAPPED entry evicted if need be; none when there
is no room. -/
def recordIn (t : List StockEntry) (e : StockEntry) : Option (List StockEntry) :=
  if t.length < stockMax then some (t ++ [e])
  else if (t.any fun x => isHistory x.slab) = true then
    some (t.eraseP (fun x => isHistory x.slab) ++ [e])
  else none

/-- R5: a new slab is recorded, or STOCK_FULL is raised. -/
def recordNew (r : SlabRecord) (s : State) : State :=
  match recordIn s.stock.table ⟨r, watchFor s r⟩ with
  | some t => { s with stock := { s.stock with table := t } }
  | none => raise .stockFull r.id.seq s

/-- An entry takes a record, and its watch follows the state. -/
def writeSlab (r : SlabRecord) (s : State) : State :=
  { s with stock := { s.stock with table := setSlab ⟨r, watchFor s r⟩ s.stock.table } }

/-! ### Catch-up -/

/-- R8: the record as this station adopts it: a hold of its own that its cut state does not know is recorded as
its RESTART would have left it. -/
def adoptable (s : State) (r : SlabRecord) : SlabRecord :=
  if heldBy s.station r = true ∧ s.cutHolds r.id = false then freedRecord r else r

/-- R8: this station's hold has ended by an adopted record. -/
def endHold (id : SlabId) (s : State) : State :=
  let s1 := toEmpty (stopWindow (emit (.preempted id) s))
  if midStep s.cut.state = true then queueDraw .unlock none s1 else s1

/-- R8: an adopted record ends the hold when the cut state holds the slab, short of SPLITTING, and the record
does not show it held by this station. -/
def endsHold (s : State) (r : SlabRecord) : Bool :=
  s.cutHolds r.id && decide (s.cut.state ≠ .splitting) && !heldBy s.station r

/-- R6, R8: a record is adopted without its precondition. -/
def adopt (r : SlabRecord) (s : State) : State :=
  let r' := adoptable s r
  let s1 := match s.slab r.id with
    | some _ => writeSlab r' s
    | none => recordNew r' s
  if endsHold s r' = true then endHold r.id s1 else s1

/-- R6: a record without a precondition: adopted when unknown or newer, else ignored. -/
def applyPlain (r : SlabRecord) (s : State) : State :=
  match s.slab r.id with
  | none => adopt r s
  | some v => if newer r.version v.version = true then adopt r s else s

/-! ### Preconditions and follow-ons -/

/-- The kinds of stock notice that carry a precondition (R7). -/
inductive StockKind where
  | claim | lapse | free (reason : FreeReason) | load | splitParent | scrap
deriving DecidableEq, Repr

/-- R7: the precondition of a kind on the entry; `carried` is the record of the notice. A FREE with a reason that R7
does not name has none that holds (DESIGN CHOICE, log 12). -/
def precondition (k : StockKind) (sender : Nat) (carried entry : SlabRecord) : Bool :=
  match k with
  | .claim =>
    decide (entry.state = .free)
      || (decide (entry.state = .claimed) && decide (entry.holder ≠ some sender)
          && decide (entry.priority.getD 0 < carried.priority.getD 0))
  | .lapse => decide (entry.state = .claimed) && decide (entry.holder = some sender)
  | .free .released => decide (entry.state = .claimed) && decide (entry.holder = some sender)
  | .free .unloaded => decide (entry.state = .loaded) && decide (entry.holder = some sender)
  | .free .orphan => decide (entry.state = .claimed)
  | .free .forced => decide (entry.state = .claimed)
  | .free (.undefined _) => false
  | .load => decide (entry.state = .claimed) && decide (entry.holder = some sender)
  | .splitParent => decide (entry.state = .loaded) && decide (entry.holder = some sender)
  | .scrap => decide (entry.state = .free)

/-- R12: at the sender, the CLAIM is answered OK, the claim window starts, the cut state becomes CLAIMED, and
the claim job is created if it is unknown. -/
def claimWon (r : SlabRecord) (cmd : Option Cmd) (s : State) : State :=
  let s1 := answer cmd .ok .none s
  ensureJob (r.job.getD 0)
    (toCut .claimed
      { s1 with
        stock := { s1.stock with window := some (s1.cfg.claimWindow * 10), heldExpiry := false }
        cut := { s1.cut with held := some r.id } })

/-- The effects at the station that held the slab before, when a claim ends by another's notice: a signal, the
window stops, the cut state becomes EMPTY (R13, R16, R25). -/
def claimEnded (sg : Signal) (s : State) : State := toEmpty (stopWindow (emit sg s))

/-- R12 to R25: the effects, beyond the entry, of a notice applied by its precondition. `before` is the entry
before the notice. A holder that a FREE entry bears, carried so against R1, is no hold: a CLAIM on it preempts nobody
(DESIGN CHOICE, log 12). -/
def stockEffects (k : StockKind) (sender : Nat) (r before : SlabRecord) (cmd : Option Cmd) (s : State) : State :=
  let mine := decide (sender = s.station)
  let wasMine := heldBy s.station before
  match k with
  | .claim =>
    if mine = true then claimWon r cmd s
    else if wasMine = true then claimEnded (.preempted r.id) s
    else s
  | .lapse => if mine = true then toEmpty (stopWindow s) else s
  | .free .released => if mine = true then answer cmd .ok .none (toEmpty (stopWindow s)) else s
  | .free .unloaded => if mine = true then answer cmd .ok .none (toEmpty s) else s
  | .free .orphan => if wasMine = true then claimEnded (.lapsed r.id) s else s
  | .free .forced => answer cmd .ok .none (if wasMine = true then claimEnded (.preempted r.id) s else s)
  | .free (.undefined _) => s
  | .load =>
    if mine = true then answer cmd .ok .none (toCut .loaded (stopWindow s)) else s
  | .splitParent =>
    if mine = true then { s with plan := { s.plan with plan := none } } else s
  | .scrap => answer cmd .ok .none s

/-- R6: a record with a precondition version is applied. A command waiting on an own notice that does not take
the precondition branch, which no reachable state shows, is answered LOST (log 6). -/
def applyChecked (k : StockKind) (sender pre : Nat) (r : SlabRecord) (cmd : Option Cmd) (s : State) : State :=
  match s.slab r.id with
  | none => answer cmd .lost .none (adopt r s)
  | some v =>
    if pre = v.version then
      if precondition k sender r v = true then stockEffects k sender r v cmd (writeSlab r s)
      else answer cmd .lost .none (adopt r s)
    else if newer r.version v.version = true then answer cmd .lost .none (adopt r s)
    else answer cmd .lost .none s

/-! ### The notices -/

/-- R6, and R10 at the console that sent it: OK with the id when the slab is recorded, FULL when it is not. -/
def applyYardIn (r : SlabRecord) (cmd : Option Cmd) (s : State) : State :=
  let s' := applyPlain r s
  match s'.slab r.id with
  | some _ => answer cmd .ok (.slabId r.id) s'
  | none => answer cmd .full .none s'

/-- R21, R171: the records of a SPLIT fragment, one after another: the parent is known by its state CUT, the
others are children without a precondition. -/
def applySplitRecord (sender pre : Nat) (s : State) (r : SlabRecord) : State :=
  if r.state = .cut then applyChecked .splitParent sender pre r none s else applyPlain r s

/-- R46: at the sender the plan is emptied when the fragment that carries the parent is applied or written, also when R6
finds the parent's record ignored, the entry having changed by catch-up (DESIGN CHOICE, log 34). -/
def dropPlan (rs : List SlabRecord) (s : State) : State :=
  if (rs.any fun r => decide (r.state = .cut)) = true then { s with plan := { s.plan with plan := none } }
  else s

/-- R21: a SPLIT fragment is applied. -/
def applySplit (sender pre : Nat) (rs : List SlabRecord) (s : State) : State :=
  rs.foldl (applySplitRecord sender pre) s

/-- R22, R23: an own SPLIT fragment is applied on its echo or written into the own view; with the last of them
the cut state becomes EMPTY. -/
def ownSplit (pre : Nat) (rs : List SlabRecord) (s : State) : State :=
  let s1 := dropPlan rs (applySplit s.station pre rs s)
  let s2 := { s1 with cut := { s1.cut with splitLeft := s1.cut.splitLeft - 1 } }
  if s2.cut.splitLeft = 0 ∧ s2.cut.state = .splitting then toEmpty s2 else s2

/-- R28: the records of a STOCK-STATE fragment. -/
def applyStockState (rs : List SlabRecord) (s : State) : State := rs.foldl (fun s r => applyPlain r s) s

/-- R26: an entry held by a station that has restarted. -/
def restartEntry (sender : Nat) (e : StockEntry) : StockEntry :=
  if heldBy sender e.slab = true then { slab := freedRecord e.slab, watch := none } else e

/-- R26: the stock unit's part of a RESTART of another station; an own RESTART changes nothing. -/
def restartStock (sender : Nat) (s : State) : State :=
  if sender = s.station then s
  else { s with stock := { s.stock with table := s.stock.table.map (restartEntry sender) } }

/-! ### Fragments and the answer to STOCK-ASK -/

/-- R171: a fragment holds the 4 bytes of its head and count and its records, in 128 payload bytes. -/
def fragmentRoom : Nat := 124

/-- R171: records in order cut into fragments, as many whole records to each as fit; `acc` is the fragment
being filled, newest record first, and `used` its bytes. -/
def packFrom (acc : List SlabRecord) (used : Nat) : List SlabRecord → List (List SlabRecord)
  | [] => if acc = [] then [] else [acc.reverse]
  | r :: rs =>
    if acc ≠ [] ∧ fragmentRoom < used + slabSize r then acc.reverse :: packFrom [r] (slabSize r) rs
    else packFrom (r :: acc) (used + slabSize r) rs

/-- R171: the fragments of a list of records. -/
def pack (rs : List SlabRecord) : List (List SlabRecord) := packFrom [] 0 rs

/-- R171: a notice has at most 8 fragments: the number of fragments in the notice that fragment i, from 0, of n
belongs to. -/
def fragmentCount (n i : Nat) : Nat := min 8 (n - 8 * (i / 8))

/-- R171: the entries of a fragmented notice and of those that follow on from it; `build first` gives the notice
of a fragment, `first` telling the first notice from the further ones. -/
def fragmentEntries (build : Bool → List SlabRecord → Notice) (batch : Nat) (frags : List (List SlabRecord)) :
    List QEntry :=
  frags.zipIdx.map fun f =>
    { entry (build (decide (f.2 < 8)) f.1) none with
      index := f.2 % 8 + 1, count := fragmentCount frags.length f.2, batch := batch }

/-- A STOCK-STATE fragment of a batch. -/
def isAnswer (batch : Nat) (e : QEntry) : Bool :=
  match e.notice with
  | .stockState _ => decide (e.batch = batch)
  | _ => false

/-- R27: STOCK-STATE notices of the last answer are still queued, and none of its fragments has completed. -/
def answerStands (s : State) : Bool :=
  !s.stock.answerTouched && (allEntries s.line).any (isAnswer s.stock.answerBatch)

/-- R27: the entries a console answers with: those not CUT or SCRAPPED, in order of entry. -/
def liveRecords (s : State) : List SlabRecord := (s.stock.table.map (·.slab)).filter fun r => !isHistory r

/-- R27: a STOCK-ASK is applied: a console that is not listen-only answers that of another station. -/
def applyStockAsk (sender : Nat) (s : State) : State :=
  if s.role ≠ .console ∨ sender = s.station ∨ s.boot.listenOnly = true ∨ answerStands s = true then s
  else
    let batch := s.stock.answerBatch + 1
    queueNotices .stockState
      (fragmentEntries (fun _ rs => .stockState rs) batch (pack (liveRecords s)))
      { s with stock := { s.stock with answerBatch := batch, answerTouched := false } }

/-! ### Slab id issue, claim window and orphan watch -/

/-- R29: the id the station issues next. -/
def nextId (s : State) : SlabId := ⟨s.station, s.boot.epoch, s.stock.seqNext⟩

/-- R29: the counter is exhausted when 65535 has been issued. -/
def idsExhausted (s : State) : Bool := decide (65535 < s.stock.seqNext)

/-- R14: the station has a LOAD or a FREE for a slab in the queue. -/
def holdsExpiry (id : SlabId) (e : QEntry) : Bool :=
  match e.notice with
  | .load _ r => decide (r.id = id)
  | .free _ _ r => decide (r.id = id)
  | _ => false

/-- R14: an expiry of the claim window takes effect: if the slab is still CLAIMED by this station, LAPSED is
signalled and a LAPSE queued. -/
def lapse (s : State) : State :=
  match s.heldSlab with
  | none => s
  | some r =>
    if r.state = .claimed ∧ r.holder = some s.station then
      queueNotices (.lapse r.id) [entry (.lapse r.version (freedRecord r)) none] (emit (.lapsed r.id) s)
    else s

/-- R14: the claim window expires. -/
def windowExpired (s : State) : State :=
  let s1 := { s with stock := { s.stock with window := none } }
  match s.heldSlab with
  | none => s1
  | some r =>
    if r.state = .claimed ∧ r.holder = some s.station then
      if s.line.queue.any (holdsExpiry r.id) = true then
        { s1 with stock := { s1.stock with heldExpiry := true } }
      else lapse s1
    else s1

/-- R14: a LOAD or FREE for the held slab has been withdrawn or lost: a held expiry takes effect. -/
def releaseExpiry (e : QEntry) (s : State) : State :=
  match s.cut.held with
  | none => s
  | some id =>
    if s.stock.heldExpiry = true ∧ holdsExpiry id e = true then
      lapse { s with stock := { s.stock with heldExpiry := false } }
    else s

/-- R16: the orphan watch of an entry expires: a FREE with reason orphan is queued. -/
def orphanExpired (id : SlabId) (s : State) : State :=
  match findSlab s.stock.table id with
  | none => s
  | some e =>
    match e.watch with
    | none => s
    | some w =>
      queueNotices (.orphan id) [entry (.free .orphan w.version (freedRecord e.slab)) none]
        { s with stock := { s.stock with table := setSlab { e with watch := none } s.stock.table } }

end Sys2Proof.Machine
end

