-- ==== Sys2Proof/Machine/Completion.lean ====
section
/-! DEFINITION. Closing and charging a segment (R62, R67, R92), and the completion of a plan (R68): its
resolution, the value split and its charges (R101), the SPLIT and TALLY notices (R21, R69, R102), and their
writing into the own view in listen-only (R70). -/

namespace Sys2Proof.Machine

/-! ### Closing a segment -/

/-- R63: the figures of a segment of length 0. -/
def noFigures : SegmentFigures := ⟨0, 0, 0, 0, 0, 0, 0, 0⟩

/-- R67, R92: the charge of a segment to the plan's charge job. -/
def segmentCharge (job : Nat) (f : SegmentFigures) : Tally :=
  { job := job, time := f.time, water := f.water, wear := f.wear, slab := 0, volume := f.volume,
    length := f.length, pieces := 0 }

/-- R67: the figures of the open segment closed with a length. -/
def figuresNow (s : State) (seg : Segment) (length : Nat) : SegmentFigures :=
  segmentFigures s.cfg s.bladeType seg s.cut.blade.remainder length s.stone.1 s.stone.2

/-- R67, R71: the blade record after a segment is charged. -/
def wornBlade (f : SegmentFigures) (b : Blade) : Blade :=
  { b with height := b.height - f.wholeWear, remainder := f.remainder, seating := false }

/-- R67: a closed segment of length 1 or more is charged. -/
def chargeSegment (p : Plan) (seg : Segment) (length : Nat) (s : State) : State :=
  let f := figuresNow s seg length
  ownCharge (segmentCharge p.header.chargeJob f) .cut p.header.slab seg.step
    { s with
      cut := { s.cut with segment := none, blade := wornBlade f s.cut.blade }
      plan := { s.plan with plan := some (recordSegment seg.step f p) } }

/-- R62: the length a closing command carries, clamped to what remains of the open segment's step. -/
def closedLength (s : State) (length : Nat) : Nat :=
  match s.plan.plan, s.cut.segment with
  | some p, some seg => min length (stepRemaining p seg.step)
  | _, _ => 0

/-- R62: the open segment closes; one of length 0 is not charged. -/
def closeSegment (length : Nat) (s : State) : State :=
  match s.plan.plan, s.cut.segment with
  | some p, some seg =>
    if closedLength s length = 0 then { s with cut := { s.cut with segment := none } }
    else chargeSegment p seg (closedLength s length) s
  | _, _ => s

/-- R63: the figures a closing command is answered with. -/
def closingFigures (length : Nat) (s : State) : SegmentFigures :=
  match s.cut.segment with
  | some seg => if closedLength s length = 0 then noFigures else figuresNow s seg (closedLength s length)
  | none => noFigures

/-- R63: charged length, duration, volume, whole wear and total cost. -/
def figuresBody (f : SegmentFigures) : ReplyBody :=
  .segment f.length f.duration f.volume f.wholeWear (segmentTotal f)

/-! ### The outcomes of a plan -/

/-- R53: the regions whose remnants take an id, in ascending order, while the counter has ids to give. -/
def keptRegions (s : State) (p : Plan) : List Nat := (remnantRegions p (resolve p)).take (65536 - s.stock.seqNext)

/-- R50, R52, R53: the outcomes after the id issue. -/
def outcomesOf (s : State) (p : Plan) : List Outcome := keepRemnants (keptRegions s p) (resolve p)

/-- R102: the value worked for the remnant of a region. -/
def remnantValue (w : SplitWork) (n : Nat) : Nat :=
  match w.outcomes.find? fun o => isRemnant o && decide (o.region = n) with
  | some o => o.amount
  | none => 0

/-- R52: the remnant of a region is scored. -/
def remnantScored (w : SplitWork) (n : Nat) : Bool :=
  w.outcomes.any fun o => decide (o.kind = .remnant true) && decide (o.region = n)

/-- R21: a child record. -/
def childRecord (own : Nat) (parent : SlabRecord) (w : SplitWork) (id : SlabId) (r : Region) : SlabRecord :=
  { id := id, parent := some parent.id, cls := parent.cls, thickness := parent.thickness,
    length := r.length, width := r.width, edge := .cut, defects := remnantDefects parent.defects r,
    value := remnantValue w r.number, state := .free, holder := none, job := none, priority := none,
    place := own, version := 1, scored := remnantScored w r.number }

/-- R21, R53: the child records in ascending order of region number, with their ids in that order. -/
def childRecords (s : State) (p : Plan) (parent : SlabRecord) (w : SplitWork) : List SlabRecord :=
  (keptRegions s p).zipIdx.filterMap fun n =>
    (findRegion p.regions n.1).map
      (childRecord s.station parent w ⟨s.station, s.boot.epoch, s.stock.seqNext + n.2⟩)

/-! ### Charges and tallies -/

/-- R101: a piece charge, or the no-piece loss with `pieces` 0. -/
def slabCharge (job amount pieces : Nat) : Tally :=
  { job := job, time := 0, water := 0, wear := 0, slab := amount, volume := 0, length := 0, pieces := pieces }

/-- R101: the piece charges in order of the outcome list. -/
def chargePieces (id : SlabId) (os : List Outcome) (s : State) : State :=
  os.foldl
    (fun s o => match o.kind with
      | .piece job _ => ownCharge (slabCharge job o.amount 1) .slab id 0 s
      | _ => s) s

/-- R101: the slab costs of a split are charged, then the no-piece loss if stage 5 ran. -/
def chargeSplit (p : Plan) (w : SplitWork) (s : State) : State :=
  let s1 := chargePieces p.header.slab w.outcomes s
  if noPieces w = true then ownCharge (slabCharge p.header.chargeJob w.loss 0) .slab p.header.slab 0 s1
  else s1

/-- The job of a piece outcome. -/
def pieceJob (o : Outcome) : Option Nat :=
  match o.kind with
  | .piece j _ => some j
  | _ => none

/-- R69: the TALLY of one job of a completed plan. -/
def tallyOf (p : Plan) (w : SplitWork) (j : Nat) : Tally :=
  let mine := w.outcomes.filter fun o => decide (pieceJob o = some j)
  let own (n : Nat) : Nat := if j = p.header.chargeJob then n else 0
  { job := j, time := own p.sums.time, water := own p.sums.water, wear := own p.sums.wear
    slab := (mine.map (·.amount)).sum + own (if noPieces w = true then w.loss else 0)
    volume := own p.sums.volume, length := own p.sums.length, pieces := mine.length }

/-- R69: the charge job first, then the piece jobs in the order of their first PIECE outcome. -/
def tallies (p : Plan) (w : SplitWork) : List Tally :=
  (distinct (p.header.chargeJob :: w.outcomes.filterMap pieceJob)).map (tallyOf p w)

/-! ### Completion -/

/-- R21, R171: the fragments of a split: the parent first, then the children. -/
def splitFragments (s : State) (p : Plan) (parent : SlabRecord) (w : SplitWork) : List (List SlabRecord) :=
  pack (cutRecord parent :: childRecords s p parent w)

/-- R175: the head of the first SPLIT notice carries the precondition version; a SPLIT without the parent
carries 0. -/
def splitNotice (pre : Nat) (first : Bool) (rs : List SlabRecord) : Notice :=
  .split (if first = true then pre else 0) rs

/-- R70: in listen-only the fragments are written into the own view one after another. -/
def writeSplit (pre : Nat) (frags : List (List SlabRecord)) (s : State) : State :=
  frags.foldl (fun s rs => ownSplit pre rs s) s

/-- R68: a plan completes; its closing segment, if any, has been charged. -/
def complete (p : Plan) (s : State) : State :=
  match s.heldSlab with
  | none => toEmpty s
  | some parent =>
    let w := splitValue parent.value (parent.length * parent.width) (outcomesOf s p)
    let frags := splitFragments s p parent w
    let s1 := chargeSplit p w
      { s with
        stock := { s.stock with seqNext := s.stock.seqNext + (keptRegions s p).length }
        plan := { s.plan with plan := some { p with split := some w } } }
    let s2 := if midStep s.cut.state = true then queueDraw .unlock none s1 else s1
    let s3 := toCut .splitting
      { s2 with cut := { s2.cut with segment := none, splitLeft := frags.length } }
    if s.boot.listenOnly = true then writeSplit parent.version frags s3
    else
      queueNotices .completion
        (fragmentEntries (splitNotice parent.version) 0 frags
          ++ (tallies p w).map fun t => entry (.tally t) none) s3

end Sys2Proof.Machine
end

