-- ==== Sys2Proof/Machine/PlantUnit.lean ====
section
/-! DEFINITION. The plant unit: capacity, stop state and fresh fraction from a report (R133 to R135), the
announcement test and its notice (R136, R137), the stale state (R138). -/

namespace Sys2Proof.Machine

/-- R133: the computed capacity. -/
def plantCapacity (cfg : ConfigRecord) (level clarifier makeup : Nat) : Nat :=
  let base := clarifier + makeup
  min cfg.maxCapacity
    (if cfg.highMark ≤ level then base + cfg.allowance
     else if cfg.lowMark ≤ level then base
     else quot (base * level) cfg.lowMark)

/-- R134: the stop state, with its hysteresis. -/
def plantStop (cfg : ConfigRecord) (stopped : Bool) (level : Nat) : Bool :=
  if stopped = true then !decide (cfg.resumeMark ≤ level) else decide (level ≤ cfg.stopMark)

/-- R135: the computed fresh fraction. -/
def plantFresh (clarifier makeup : Nat) : Nat :=
  if clarifier + makeup = 0 then 0 else roundQuot (100 * makeup) (clarifier + makeup)

/-- R136: the announced capacity. -/
def announcedCapacity (p : Plant) : Nat := if p.stale = true then 0 else p.capacity

/-- A PLANT notice. -/
def isPlant (e : QEntry) : Bool :=
  match e.notice with
  | .plant _ _ _ _ => true
  | _ => false

/-- R137: the notice with the plant unit's present figures. -/
def plantFigures (p : Plant) : Notice := .plant (announcedCapacity p) p.fresh p.stop p.stale

/-- R136, R137: a PLANT notice is queued, or held pending, unless one already is; the one being sent still counts as
queued (DEDUCED, log 25). -/
def queuePlant (s : State) : State :=
  if (allEntries s.line).any isPlant = true then s
  else queueNotices .plant [entry (plantFigures s.plant) none] s

/-- R136: the announcement test's conditions. -/
def announceDue (cfg : ConfigRecord) (p : Plant) : Bool :=
  match p.announced with
  | none => true
  | some a =>
    decide (a.capacity + cfg.changeStep ≤ announcedCapacity p)
      || decide (announcedCapacity p + cfg.changeStep ≤ a.capacity)
      || (p.stop != a.stop) || (p.stale != a.stale)

/-- R136, R140: the announcement test queues or refreshes a PLANT notice. -/
def announces (s : State) : Bool := announceDue s.cfg s.plant && !s.boot.listenOnly

/-- R136: the announcement test. -/
def announceTest (s : State) : State := if announces s = true then queuePlant s else s

/-- R136: the announce timer starts at the first accepted report or stale expiry. -/
def startAnnounce (p : Plant) : Plant := { p with announceTimer := p.announceTimer.or (some 100) }

/-- R131: a report is accepted, up to the announcement test. -/
def acceptReport (level clarifier makeup : Nat) (s : State) : State :=
  let lv := min level 1000
  { s with plant := startAnnounce { s.plant with
      report := some ⟨lv, clarifier, makeup, s.now⟩
      reportTimer := some 300
      stale := false
      capacity := plantCapacity s.cfg lv clarifier makeup
      stop := plantStop s.cfg s.plant.stop lv
      fresh := plantFresh clarifier makeup } }

/-- R138: the report timer expires. -/
def reportsStale (s : State) : State :=
  announceTest (raise .plantStale s.station
    { s with plant := startAnnounce { s.plant with stale := true, reportTimer := none } })

/-- R137: an own PLANT notice has been applied on its echo. -/
def plantAnnounced (capacity : Nat) (stop stale : Bool) (s : State) : State :=
  { s with plant := { s.plant with announced := some ⟨capacity, stop, stale⟩, announceTimer := some 100 } }

/-- R136: the announce timer expires. -/
def announceExpired (s : State) : State :=
  queuePlant { s with plant := { s.plant with announceTimer := some 100 } }

end Sys2Proof.Machine
end

