-- ==== Sys2Proof/Machine/LineUnit.lean ====
section
/-! DEFINITION. The line unit: receiving (R162, R172, R173), revalidation of the head (R9, R28, R58, R115, R124,
R137, R167), the attempt to send (R166), the clean echo (R168) and the loss of a notice (R170). -/

namespace Sys2Proof.Machine

/-! ### Entering listen-only -/

/-- The precondition version and records of a SPLIT entry. -/
def splitOf (e : QEntry) : Option (Nat × List SlabRecord) :=
  match e.notice with
  | .split pre rs => some (pre, rs)
  | _ => none

/-- R173: the queue and the waiter list are emptied, each waiting command is answered SILENT, and the owners
discard what they hold: a held expiry (R30), and the SPLIT fragments, which are written into the own view
(R70). -/
def silence (s : State) : State :=
  let entries := allEntries s.line
  let s1 := entries.foldl (fun s e => answer e.cmd .silent .none s)
    { s with
      boot := { s.boot with listenOnly := true, runState := .listenOnly }
      line := { s.line with queue := [], waiters := [], access := .idle, driving := [] }
      stock := { s.stock with heldExpiry := false } }
  (entries.filterMap splitOf).foldl (fun s f => ownSplit f.1 f.2 s) s1

/-- R172: an accepted frame bears the station's own number: DUP_STATION and listen-only; in listen-only it is
discarded. -/
def duplicateHeard (s : State) : State :=
  if s.boot.listenOnly = true then s else silence (raise .dupStation s.station s)

/-! ### Receiving -/

/-- R162, R176: a frame is dropped and counted. -/
def countReceiveError (s : State) : State :=
  { s with line := { s.line with receiveErrors := countUp s.line.receiveErrors } }

/-- R159: joining the line, or rejoining it: a frame in progress is heard to its end and discarded. -/
def joinLine (frameUnderWay : Bool) (s : State) : State :=
  { s with line := { s.line with midFrame := frameUnderWay } }

/-- R159, R174: a frame has come to its end on the line. It is discarded by a station that has not joined, or is in a
line test, and when it was in progress as the station joined (log 37); else `take` takes it. No other frame completes
while the station drives its own (R6, R167; log 6). -/
def atFrameEnd (take : State → State) (s : State) : State :=
  if s.joined = false ∨ s.line.access = .sending then s
  else if s.line.midFrame = true then joinLine false s
  else take s

/-- R162, R172: a frame heard from its beginning: one that fails a check is counted; one with the own number reveals a
duplicate; else its owner applies it. -/
def judgeFrame (sender index count : Nat) (n : Notice) (apply : State → State) (s : State) : State :=
  if sender = 0 ∨ 30 < sender ∨ fragmentOk (kindCode n) index count = false ∨ noticeFits n = false then
    countReceiveError s
  else if sender = s.station then duplicateHeard s
  else apply s

/-- R159, R162, R163, R172: a notice's frame is heard. -/
def hear (sender index count : Nat) (n : Notice) (apply : State → State) (s : State) : State :=
  atFrameEnd (judgeFrame sender index count n apply) s

/-! ### Revalidation -/

/-- R167: the owner's answer about the head. -/
inductive Verdict where
  /-- it is sent, unchanged or updated -/
  | send (e : QEntry)
  /-- it leaves the queue, its waiting command, if any, answered with the code -/
  | withdraw (code : Status)
deriving DecidableEq, Repr

/-- R9: sent unchanged while the entry's version is the notice's precondition version. -/
def ifUnmoved (s : State) (id : SlabId) (pre : Nat) (code : Status) (e : QEntry) : Verdict :=
  match s.slab id with
  | some v => if v.version = pre then .send e else .withdraw code
  | none => .withdraw code

/-- R9: the CLAIM row. A CLAIM whose precondition fails and whose job is CLOSED too is answered LOST (DESIGN CHOICE,
log 38). -/
def revalidateClaim (s : State) (pre : Nat) (r : SlabRecord) (e : QEntry) : Verdict :=
  match s.slab r.id with
  | none => .withdraw .lost
  | some v =>
    if precondition .claim s.station r v = false then .withdraw .lost
    else if jobClosed s.cost.jobs (r.job.getD 0) = true then .withdraw .stale
    else if v.version = pre then .send e
    else
      let n : Notice := .claim v.version (claimedRecord s.station (r.job.getD 0) (r.priority.getD 0) v)
      .send { e with notice := n }

/-- R9: a forced FREE or a SCRAP: re-versioned while the entry is still in the state `still`. -/
def reversion (s : State) (id : SlabId) (pre : Nat) (still : SlabState) (rebuild : SlabRecord → Notice)
    (e : QEntry) : Verdict :=
  match s.slab id with
  | none => .withdraw .stale
  | some v =>
    if v.version = pre then .send e
    else if v.state = still then .send { e with notice := rebuild v }
    else .withdraw .stale

/-- R28: the records refreshed to the view; one whose slab has left it is dropped. -/
def refreshRecords (s : State) (rs : List SlabRecord) : List SlabRecord := rs.filterMap fun r => s.slab r.id

/-- R58: the locking DRAW. A plan that is gone withdraws it with LOST (log 13). -/
def revalidateLock (s : State) (e : QEntry) : Verdict :=
  if s.cut.state ≠ .planned then .withdraw .lost
  else if s.water.stop = true then .withdraw .waitStop
  else if s.ownGrant < minWetting s.bladeType then .withdraw .waitWater
  else .send { e with notice := .draw s.water.ownRequest true s.ownGrant }

/-- R115: a REQUEST or PROMPT whose application would change nothing. -/
def drawIdle (s : State) (e : QEntry) : Bool :=
  (decide (e.purpose = some .request) || decide (e.purpose = some .prompt)) && !e.absorbed
    && !midStep s.cut.state && !s.ownDraw.locked && decide (s.ownDraw.requested = s.water.ownRequest)
    && decide (openGrant s.water.capacity s.water.ownRequest (othersSum s.water.draws s.station) = s.ownGrant)

/-- R108, R115: an own DRAW other than a LOCK: its fields fixed from the present state. -/
def revalidateDraw (s : State) (e : QEntry) : Verdict :=
  if drawIdle s e = true then .withdraw .ok
  else if midStep s.cut.state = true then
    .send { e with notice := .draw s.water.ownRequest true s.ownGrant }
  else .send { e with notice := .draw s.water.ownRequest false 0 }

/-- R167: the owner revalidates an entry against its view. -/
def revalidate (s : State) (e : QEntry) : Verdict :=
  match e.notice with
  | .claim pre r => revalidateClaim s pre r e
  | .lapse pre r => ifUnmoved s r.id pre .ok e
  | .free .released pre r => ifUnmoved s r.id pre .lost e
  | .free .unloaded pre r => ifUnmoved s r.id pre .lost e
  | .free .orphan pre r => ifUnmoved s r.id pre .ok e
  | .free .forced pre r => reversion s r.id pre .claimed (fun v => .free .forced v.version (freedRecord v)) e
  | .free (.undefined _) _ _ => .send e
  | .load pre r => ifUnmoved s r.id pre .lost e
  | .scrap pre r => reversion s r.id pre .free (fun v => .scrap v.version (scrappedRecord v)) e
  | .stockState rs =>
    if refreshRecords s rs = [] then .withdraw .ok
    else .send { e with notice := .stockState (refreshRecords s rs) }
  | .draw _ _ _ => if e.purpose = some .lock then revalidateLock s e else revalidateDraw s e
  | .plant _ _ _ _ => .send { e with notice := plantFigures s.plant }
  | .waterOverride => if s.water.stop = true then .send e else .withdraw .stale
  | .yardIn _ => .send e
  | .split _ _ => .send e
  | .stockAsk => .send e
  | .tally _ => .send e
  | .jobOpen _ => .send e
  | .jobClose _ => .send e
  | .restart => .send e

/-- R61: a WAIT reason. -/
def isWait (st : Status) : Bool :=
  decide (st = .waitStop) || decide (st = .waitWater) || decide (st = .waitParked)
    || decide (st = .waitPriming) || decide (st = .waitBlade)

/-- R167: a withdrawn entry has left the queue: its command is answered; a WAIT reason sets the waiting mark
(R58); a held expiry may take effect (R14). -/
def withdrawn (e : QEntry) (code : Status) (s : State) : State :=
  let s1 := answer e.cmd code .none (leaveQueue s)
  releaseExpiry e (if isWait code = true then setMark s1 else s1)

/-! ### The attempt -/

/-- R166: the attempt count rises by one, and the station drives the frame. -/
def beginSending (e : QEntry) (s : State) : State :=
  let e' := { e with attempts := e.attempts + 1 }
  { s with line := { s.line with
      queue := e' :: s.line.queue.tail
      access := .sending
      driving := encodeFrame s.station e'.index e'.count e'.notice } }

/-- R167: the head updated by its owner but not yet sent, a frame having begun meanwhile. -/
def holdHead (e : QEntry) (s : State) : State :=
  { s with line := { s.line with queue := e :: s.line.queue.tail, access := .waitQuiet } }

/-- R166, R167: the head is revalidated and sent; after a withdrawal the next entry is revalidated at once, and
sent if the line is still quiet. A LAPSE that a held expiry queues as the withdrawal empties the queue is such a next
entry (DESIGN CHOICE, log 40). The first number bounds the withdrawals, `quiet` is the line's state. -/
def attempt (stillQuiet : Bool) : Nat → Bool → State → State
  | 0, _, s => s
  | fuel + 1, quiet, s =>
    match s.line.queue with
    | [] => s
    | e :: _ =>
      match revalidate s e with
      | .send e' => if quiet = true then beginSending e' s else holdHead e' s
      | .withdraw code => attempt stillQuiet fuel stillQuiet (withdrawn e code s)

/-- A bound on the withdrawals of one event: every entry that waits, and a LAPSE a held expiry may add. -/
def attemptFuel (s : State) : Nat := (allEntries s.line).length + 3

/-- R166: 48 quiet bit times have passed; with them any frame met on joining has ended (R159). -/
def quietElapsed (stillQuiet : Bool) (s : State) : State :=
  if s.joined = true ∧ s.line.access = .waitQuiet then attempt stillQuiet (attemptFuel s) true (joinLine false s)
  else s

/-! ### The echo -/

/-- R112, step 5: the command waiting on an own DRAW is answered: the CUT-ASK on a LOCK by R58, PARK and UNPARK
by R76 and R77. -/
def answerDraw (e : QEntry) (s : State) : State :=
  if e.purpose = some .lock then grantCut e.cmd s else answer e.cmd .ok .none s

/-- R163, R168: the station applies its own notice at the clean completion of its echo, by the rules of every
receiver and with the effects of a sender. -/
def applyOwn (e : QEntry) (s : State) : State :=
  match e.notice with
  | .yardIn r => applyYardIn r e.cmd s
  | .claim pre r => applyChecked .claim s.station pre r e.cmd s
  | .lapse pre r => applyChecked .lapse s.station pre r e.cmd s
  | .free why pre r => applyChecked (.free why) s.station pre r e.cmd s
  | .load pre r => applyChecked .load s.station pre r e.cmd s
  | .split pre rs => ownSplit pre rs s
  | .scrap pre r => applyChecked .scrap s.station pre r e.cmd s
  | .stockAsk => applyStockAsk s.station s
  | .stockState rs =>
    applyStockState rs
      { s with stock := { s.stock with
        answerTouched := s.stock.answerTouched || decide (e.batch = s.stock.answerBatch) } }
  | .draw q l g => answerDraw e (applyDraw s.station q l g s)
  | .plant c f st sl => plantAnnounced c st sl (applyPlant s.station c f st sl s)
  | .waterOverride => applyOverride e.cmd s
  | .tally t => applyTally s.station t s
  | .jobOpen j => applyJobOpen j e.cmd s
  | .jobClose j => applyJobClose j e.cmd s
  | .restart => removeDraw s.station (restartStock s.station s)

/-- R168: the head leaves the queue, frames sent rises, and the owner applies the notice. -/
def echoClean (s : State) : State :=
  match s.line.access, s.line.queue with
  | .sending, e :: _ =>
    let s1 := leaveQueue s
    applyOwn e { s1 with line := { s1.line with framesSent := countUp s1.line.framesSent } }
  | _, _ => s

/-- R170: the detail word of LINE_LOST; for a STOCK-ASK, a stock notice without a record, the station's own number
(DESIGN CHOICE, log 27); for a fragment, its own first record's sequence (DESIGN CHOICE, log 41). -/
def lostDetail (own : Nat) : Notice → Nat
  | .yardIn r => r.id.seq
  | .claim _ r => r.id.seq
  | .lapse _ r => r.id.seq
  | .free _ _ r => r.id.seq
  | .load _ r => r.id.seq
  | .scrap _ r => r.id.seq
  | .split _ rs => (rs.map (·.id.seq)).headD own
  | .stockState rs => (rs.map (·.id.seq)).headD own
  | .tally t => t.job
  | .jobOpen j => j
  | .jobClose j => j
  | _ => own

/-- R23: a SPLIT fragment lost once is queued once more; one lost a second time is written into the own view. While the
queue is full, the fragments lost once wait under one cause (DESIGN CHOICE, log 26). -/
def lostSplit (e : QEntry) (s : State) : State :=
  match e.notice with
  | .split pre rs =>
    if e.second = true then ownSplit pre rs s
    else queueNotices .splitAgain [{ e with attempts := 0, second := true }] s
  | _ => s

/-- R170: attempt 8 has been abandoned: the notice is lost. -/
def noticeLost (e : QEntry) (s : State) : State :=
  let s1 := raise .lineLost (lostDetail s.station e.notice) (leaveQueue s)
  lostSplit e (releaseExpiry e (answer e.cmd .lineLost .none s1))

/-- R169: the slots drawn for a deferral after attempt `a`, from 1 to 2^min(a, 4); `n` numbers the draw. -/
def deferralSlots (n a : Nat) : Nat := 1 + Config.deferralDraw n % 2 ^ min a 4

/-- R169, R170: a character's echo differs. -/
def echoDiffers (s : State) : State :=
  match s.line.access, s.line.queue with
  | .sending, e :: _ =>
    if 8 ≤ e.attempts then noticeLost e s
    else
      { s with
        freeCount := s.freeCount + 1
        line := { s.line with
          access := .deferring (deferralSlots s.freeCount e.attempts), driving := []
          deferrals := countUp s.line.deferrals } }
  | _, _ => s

/-- R169: the last deferral slot ends. -/
def deferralEnds (s : State) : State :=
  match s.line.access with
  | .deferring _ => { s with line := { s.line with access := .waitQuiet } }
  | _ => s

end Sys2Proof.Machine
end

