-- ==== Sys2Proof/Machine/Operands.lean ====
section
/-! DEFINITION. What a machine-port command meets before its owner: the drop of R179, the six tests of R180 with
the roles of R185 and the field ranges the owner chapters give, and the test that a station holds nothing
(R174, R195). -/

namespace Sys2Proof.Machine

/-! ### The tests of a command -/

/-- R179, R183: a list of 16 or more frames, none of them a signal not yet begun, turns every command frame
away. -/
def outputBlocked (p : Port) : Bool := decide (outMax ≤ p.out.length) && !p.out.any displaceable

/-- R179: a dropped frame adds one to the port-error counter, which stays at 65535. -/
def countPortError (s : State) : State :=
  { s with port := { s.port with portErrors := min (s.port.portErrors + 1) 65535 } }

/-- R185: the role a command belongs to; none when it is of every role. -/
def cmdRole : Cmd → Option Role
  | .status => none
  | .querySlab => none
  | .queryJob => none
  | .stockList => none
  | .logRead => none
  | .faultRead => none
  | .faultAck => none
  | .clear => none
  | .lineTest => none
  | .configWrite => none
  | .claim => some .saw
  | .release => some .saw
  | .load => some .saw
  | .unload => some .saw
  | .planBegin => some .saw
  | .planPart => some .saw
  | .planEnd => some .saw
  | .planDrop => some .saw
  | .planAbort => some .saw
  | .cutAsk => some .saw
  | .cutHalted => some .saw
  | .cutDone => some .saw
  | .bladeChange => some .saw
  | .park => some .saw
  | .unpark => some .saw
  | .queryPlan => some .saw
  | .plantReport => some .plant
  | .yardIn => some .console
  | .scrap => some .console
  | .forceFree => some .console
  | .jobOpen => some .console
  | .jobClose => some .console
  | .waterOverride => some .console

/-- R185: the command is allowed to a role. -/
def roleAllows (c : Cmd) (r : Role) : Bool :=
  match cmdRole c with
  | none => true
  | some r' => decide (r' = r)

/-- R180, test 4: the commands CONFIG FAULT takes. -/
def takenInFault (c : Cmd) : Bool :=
  decide (c = .status) || decide (c = .faultRead) || decide (c = .configWrite)

/-- R180: the tests in their order on a command whose type and length are good; `fieldsOk` tells that every
field that test 6 looks at lies in its range or is one of those clamped (log 15). -/
def gateTest (c : Cmd) (fieldsOk : Bool) (s : State) : Option Status :=
  if s.boot.runState = .starting ∧ c ≠ .status then some .busy
  else if s.port.outstanding.isSome = true ∧ c ≠ .status then some .busy
  else if s.boot.runState = .configFault ∧ takenInFault c = false then some .wrongState
  else if s.boot.runState ≠ .configFault ∧ s.boot.runState ≠ .starting ∧ roleAllows c s.role = false then
    some .wrongRole
  else if fieldsOk = false then some .badField
  else none

/-- R179, R180: a command frame that has arrived whole: dropped, answered by a test, or passed to its owner. -/
def gate (c : Cmd) (fieldsOk : Bool) (owner : State → State) (s : State) : State :=
  if outputBlocked s.port = true then countPortError s
  else
    match gateTest c fieldsOk s with
    | some st => reply c st .none s
    | none => owner s

/-! ### Field ranges (test 6) -/

/-- R180: a slab id in its ranges. -/
def slabIdOk (id : SlabId) : Bool :=
  within 1 id.origin 30 && within 1 id.epoch 65535 && within 1 id.seq 65535

/-- R180: a job number in its range. -/
def jobOk (j : Nat) : Bool := within 1 j 65535

/-- R35: the header's fields that PLAN-BEGIN tests behind the cut state: no charge job of 0, no count of 0. -/
def planHeaderOk (h : PlanHeader) : Bool :=
  jobOk h.chargeJob && decide (h.steps ≠ 0) && decide (h.leaves ≠ 0)

/-- R36: a step entry's axis. -/
def stepEntryOk (e : StepEntry) : Bool := (axisOf e.axis).isSome

/-- R36: a leaf entry's kind, and the job of a PIECE. -/
def leafEntryOk (e : LeafEntry) : Bool :=
  match leafKindOf e.kind with
  | none => false
  | some .piece => jobOk e.job
  | some _ => true

/-- R36: at most 12 entries of either kind. -/
def partMax : Nat := 12

/-- R36: a part's fields, which PLAN-PART tests behind the cut state. -/
def planPartOk (steps : List StepEntry) (leaves : List LeafEntry) : Bool :=
  decide (steps.length ≤ partMax) && decide (leaves.length ≤ partMax) && steps.all stepEntryOk
    && leaves.all leafEntryOk

/-- R71, R73: the type, the serial, and the height at most the type's new segment height. -/
def bladeChangeOk (cfg : ConfigRecord) (type serial height : Nat) : Bool :=
  decide (type ≤ 7) && decide (serial ≤ 99999999)
    && decide (height ≤ (cfg.blades.getD type BladeType.blank).newHeight)

/-- R131: the flows; the tank level is clamped and not tested. -/
def plantReportOk (clarifier makeup : Nat) : Bool := decide (clarifier ≤ 2000) && decide (makeup ≤ 2000)

/-- R1, R10: a defect with positive extents inside a slab. -/
def defectOk (length width : Nat) (d : Defect) : Bool :=
  decide (1 ≤ d.length) && decide (1 ≤ d.width) && decide (d.x + d.length ≤ length)
    && decide (d.y + d.width ≤ width)

/-- R10: the fields of YARD-IN. -/
def yardInOk (cls thickness length width : Nat) (defects : List Defect) (value : Nat) : Bool :=
  within 1 cls 4 && within 10 thickness 40 && within 1000 length 40000 && within 1000 width 25000
    && decide (defects.length ≤ 4) && defects.all (defectOk length width) && decide (value ≤ 99999999)

/-- R187: the start position and the filter. -/
def stockListOk (start filter : Nat) : Bool := within 1 start 200 && decide (filter ≤ 5)

/-! ### Holding nothing -/

/-- R174, R195: a slab in the station's own table is CLAIMED or LOADED with itself as holder. -/
def holdsSlab (s : State) : Bool := s.stock.table.any fun e => heldBy s.station e.slab

/-- R174: the station holds nothing on the line. -/
def lineClear (s : State) : Bool :=
  !holdsSlab s && decide (s.water.ownRequest = 0) && decide (s.ownGrant = 0) && !s.ownDraw.locked
    && s.line.queue.isEmpty && s.line.waiters.isEmpty

/-- R195: the station holds nothing. -/
def holdsNothing (s : State) : Bool := lineClear s && s.plan.staging.isNone && s.plan.plan.isNone

end Sys2Proof.Machine
end

