-- ==== Sys2Proof/Machine/StartUp.lean ====
section
/-! DEFINITION. The start-up and fault unit: the state a CONFIG-WRITE leaves its units with (R195), CONFIG FAULT
(R193), entering RUNNING or LISTEN-ONLY (R194), CLEAR (R196), power-on (R193), the EEPROM's answers (R193 to R195)
and the line test (R174). -/

namespace Sys2Proof.Machine

/-! ### The end of STARTING -/

/-- R183: the signals STARTING held back are transmitted when it ends. -/
def releaseHeld (p : Port) : Port :=
  startTransmit { p with out := p.out.map fun e => { e with held := false } }

/-- The run state changes as STARTING ends. -/
def endStarting (r : RunState) (s : State) : State :=
  { s with boot := { s.boot with runState := r, phase := .none }, port := releaseHeld s.port }

/-- R193 to R195: a failure in STARTING raises its fault and ends in CONFIG FAULT; a CONFIG-WRITE that waits is
answered BAD FIELD with the kind and the detail word. -/
def enterConfigFault (k : FaultKind) (detail : Nat) (s : State) : State :=
  let s1 := endStarting .configFault (raise k detail s)
  answer s1.port.outstanding .badField (.configFailed k detail) s1

/-- R194, R196: the notices a station announces itself with: RESTART, STOCK-ASK, and its first DRAW when its own
request is not 0; nothing in listen-only. -/
def announceSelf (s : State) : State :=
  let s1 := queueNotices .start [entry .restart none, entry .stockAsk none] s
  if s1.water.ownRequest = 0 then s1 else queueDraw .request none s1

/-- R128: the water unit as a station enters service, or after CLEAR: the fallback capacity, the own entry alone,
the two timers started; the own request is worked out afterwards. -/
def freshWater (s : State) : Water :=
  { Water.reset s.station with
    capacity := s.cfg.fallback, plantHeard := some 350, refresh := some 100 }

/-- R132, R141: the plant unit as a station enters service, or after CLEAR. -/
def freshPlant (s : State) : Plant :=
  { Plant.reset with reportTimer := if s.role = .plant then some 300 else none }

/-- R107, R128, R141: the units whose timers start on entering service. -/
def startUnits (s : State) : State :=
  let s1 := { s with water := freshWater s, plant := freshPlant s }
  { s1 with water := { s1.water with ownRequest := workRequest s1 } }

/-- R192: the run state of a joined station. -/
def joinedState (listenOnly : Bool) : RunState := if listenOnly = true then .listenOnly else .running

/-- R79, R80: at a plant or console station the cut unit holds its reset values; what CONFIG-WRITE keeps of it, blade
record, parked flag and priming, takes them as the station enters service in that role, and R79 keeps it for a saw
(DEDUCED, log 31). -/
def cutInRole (r : Role) (c : CutUnit) : CutUnit :=
  if r = .saw then c else { c with blade := Blade.reset, parked := false, priming := none }

/-- R194: the record and the advanced epoch take effect, the timers start, the high-water mark is set anew
(R156), the station announces itself, and a CONFIG-WRITE that waits is answered (R195). A LOG HIGH stands before
that answer in the output list (DESIGN CHOICE, log 30). The station joins the line (R159). -/
def enterService (frameUnderWay : Bool) (record : ConfigRecord) (epoch : Nat) (s : State) : State :=
  let s1 := { s with
    boot := { s.boot with config := some record, epoch := epoch }
    cut := cutInRole record.role s.cut }
  let s2 := joinLine frameUnderWay (rearm (startUnits (endStarting (joinedState s.boot.listenOnly) s1)))
  answer s2.port.outstanding .ok (.runState s2.boot.runState) (announceSelf s2)

/-! ### Power-on and the EEPROM -/

/-- R193: power is applied: every unit takes its power-on values and autoload reads the record. The EEPROM keeps
its bytes; a write that power-on cuts short has changed none of them (DESIGN CHOICE, log 5). The model's own queue
and counter go on. -/
def powerUp (s : State) : State :=
  { State.reset with pending := s.pending, freeCount := s.freeCount, boot := Boot.reset s.boot.eeprom }

/-- R193, R194: the reading of the record ends: it fails with CONFIG_READ or CONFIG_BAD, or the boot epoch is
advanced and its write-back begins. -/
def recordRead (noAcknowledgeAt : Option Nat) (s : State) : State :=
  match noAcknowledgeAt with
  | some a => enterConfigFault .configRead a s
  | none =>
    match firstWrong s.boot.eeprom with
    | some o => enterConfigFault .configBad o s
    | none =>
      let record := decodeConfig s.boot.eeprom
      { s with boot := { s.boot with
          phase := .writingEpoch record (epochSucc record.epoch)
          advanced := some (epochSucc record.epoch) } }

/-- R194: the EEPROM after a write-back that failed may hold either epoch (log 3). -/
def eitherEpoch (n : Nat) (eeprom : List Byte) (epoch : Nat) : List Byte :=
  if Config.failedEpochWriteLands n = true then withEpoch eeprom epoch else eeprom

/-- R194: the write-back of an epoch ends. -/
def epochWritten (result : EpochWrite) (record : ConfigRecord) (epoch : Nat) (s : State) : State :=
  match result with
  | .confirmed frameUnderWay =>
    enterService frameUnderWay record epoch { s with boot := { s.boot with eeprom := withEpoch s.boot.eeprom epoch } }
  | .noAcknowledge | .readBackUnequal =>
    enterConfigFault .epochWrite epoch
      { s with
        freeCount := s.freeCount + 1
        boot := { s.boot with eeprom := eitherEpoch s.freeCount s.boot.eeprom epoch } }

/-- R195: the bytes of the EEPROM after a record write that failed are open (log 7). -/
def brokenRecord (n : Nat) : List Byte := (List.range 256).map (Config.failedWriteByte n)

/-- R195: the writing of a record ends: autoload reruns, or CONFIG_READ ends it in CONFIG FAULT. -/
def recordWritten (noAcknowledgeAt : Option Nat) (bytes : List Byte) (s : State) : State :=
  match noAcknowledgeAt with
  | none => { s with boot := { s.boot with eeprom := bytes, phase := .reading } }
  | some a =>
    enterConfigFault .configRead a
      { s with
        freeCount := s.freeCount + 1
        boot := { s.boot with eeprom := brokenRecord s.freeCount } }

/-! ### CONFIG-WRITE and CLEAR -/

/-- R195: the record as it is written: its epoch field set to the epoch last advanced to since power-on, or as
carried when none has been. -/
def recordToWrite (advanced : Option Nat) (record : List Byte) : List Byte :=
  match advanced with
  | some e => withEpoch record e
  | none => record

/-- R195, and the reset tables of every chapter under "Autoload after CONFIG-WRITE": what each unit keeps; the rest
takes its power-on values (R192), the high-water mark among it until the autoload sets it anew (log 24). What R79
keeps of the cut unit is kept here, whatever the role; a role other than saw acts as the station enters service in it
(log 31). -/
def rewriteReset (record : List Byte) (s : State) : State :=
  { s with
    boot := { s.boot with
      runState := .starting, phase := .writingRecord (recordToWrite s.boot.advanced record) }
    line := Line.reset
    stock := { Stock.reset with seqNext := s.stock.seqNext }
    plan := PlanUnit.reset
    cut := { CutUnit.reset with blade := s.cut.blade, parked := s.cut.parked, priming := s.cut.priming }
    water := Water.reset s.station
    plant := Plant.reset
    cost := { s.cost with jobs := [], armed := true } }

/-- R196, and the reset tables of every chapter under "CLEAR". The station stays on the line. -/
def clearReset (s : State) : State :=
  startUnits
    { s with
      boot := { s.boot with faults := FaultFlags.clear, lastFault := none }
      port := { s.port with portErrors := 0, overrun := false }
      line := { Line.reset with midFrame := s.line.midFrame }
      stock := { Stock.reset with seqNext := s.stock.seqNext }
      plan := PlanUnit.reset
      cut := { CutUnit.reset with blade := s.cut.blade }
      cost := Costing.reset }

/-! ### The line test -/

/-- R174: the test frame is sent into the loop. -/
def beginLineTest (s : State) : State :=
  { s with
    boot := { s.boot with runState := .loopback }
    line := { s.line with driving := testFrame s.station } }

/-- R174: the verdict on the bytes that came back: those of the frame sent are compared one by one. Bytes that
equal the 23 sent carry a check that agrees with them. -/
def lineTestResult (station : Nat) (received : List Byte) : Status × ReplyBody :=
  match firstDifference (testFrame station) received with
  | none => (.pass, .none)
  | some n => (.fail, .position n)

/-- R174: the bytes that had come back when a tick ended the test: how many is a free value, short of all 23, since
with all 23 back the test has ended (log 33). -/
def bytesBack (n station : Nat) : List Byte := (testFrame station).take (Config.loopBytesBack n % 23)

/-- R174: the test ends; the receiver goes back to the line, which it rejoins (R159), and the run state to the one the
test began in. -/
def endLineTest (received : List Byte) (frameUnderWay : Bool) (s : State) : State :=
  let r := lineTestResult s.station received
  answer s.port.outstanding r.1 r.2
    (joinLine frameUnderWay { s with
      boot := { s.boot with runState := joinedState s.boot.listenOnly }
      line := { s.line with driving := [] } })

/-- R174: one tick has passed since the test frame was started: the test ends with what had come back. Whether a frame
is then in progress on the line is a free value (log 37). -/
def loopTimeout (s : State) : State :=
  endLineTest (bytesBack s.freeCount s.station) (Config.frameUnderWay s.freeCount) { s with freeCount := s.freeCount + 1 }

end Sys2Proof.Machine
end

