-- ==== Sys2Proof/Machine/ConsoleCommands.lean ====
section
/-! DEFINITION. The meanings of the console commands: YARD-IN (R10), SCRAP (R24), FORCE-FREE (R25), JOB-OPEN
(R149), JOB-CLOSE (R150), WATER-OVERRIDE (R124). -/

namespace Sys2Proof.Machine

/-! ### Slabs -/

/-- R10: the own table is full and holds no CUT or SCRAPPED entry. -/
def stockBlocked (t : List StockEntry) : Bool :=
  decide (stockMax ≤ t.length) && !t.any fun x => isHistory x.slab

/-- R10: the record of a yard slab. -/
def yardRecord (id : SlabId) (cls thickness length width : Nat) (defects : List Defect) (value : Nat) :
    SlabRecord :=
  { id := id, parent := none, cls := cls, thickness := thickness, length := length, width := width,
    edge := .raw, defects := defects, value := value, state := .free, holder := none, job := none,
    priority := none, place := 0, version := 1, scored := false }

/-- R29: an id has been issued. -/
def issueId (s : State) : State := { s with stock := { s.stock with seqNext := s.stock.seqNext + 1 } }

/-- A notice can be queued for a command (R182). -/
def canQueue (s : State) : Bool := !s.boot.listenOnly && decide (s.line.queue.length < queueMax)

/-- R10: YARD-IN; an id is issued when the notice is queued. -/
def takeYardIn (cls thickness length width : Nat) (defects : List Defect) (value : Nat) (s : State) : State :=
  if stockBlocked s.stock.table = true then reply .yardIn .full .none s
  else if idsExhausted s = true then reply .yardIn .idExhausted .none s
  else
    queueCommand .yardIn (.yardIn (yardRecord (nextId s) cls thickness length width defects value))
      (if canQueue s = true then issueId s else s)

/-- R10: YARD-IN. -/
def execYardIn (cls thickness length width : Nat) (defects : List Defect) (value : Nat) (s : State) :
    Host.Outcome State Fault Refusal :=
  .next (gate .yardIn (yardInOk cls thickness length width defects value)
    (takeYardIn cls thickness length width defects value) s)

/-- R24, R25: a console command on a slab in one state: UNKNOWN, WRONG STATE, or its notice is queued. -/
def onSlabIn (c : Cmd) (id : SlabId) (st : SlabState) (notice : SlabRecord → Notice) (s : State) : State :=
  match s.slab id with
  | none => reply c .unknown .none s
  | some r => if r.state = st then queueCommand c (notice r) s else reply c .wrongState .none s

/-- R24: SCRAP. -/
def takeScrap (id : SlabId) (s : State) : State :=
  onSlabIn .scrap id .free (fun r => .scrap r.version (scrappedRecord r)) s

/-- R24: SCRAP. -/
def execScrap (id : SlabId) (s : State) : Host.Outcome State Fault Refusal :=
  .next (gate .scrap (slabIdOk id) (takeScrap id) s)

/-- R25: FORCE-FREE. -/
def takeForceFree (id : SlabId) (s : State) : State :=
  onSlabIn .forceFree id .claimed (fun r => .free .forced r.version (freedRecord r)) s

/-- R25: FORCE-FREE. -/
def execForceFree (id : SlabId) (s : State) : Host.Outcome State Fault Refusal :=
  .next (gate .forceFree (slabIdOk id) (takeForceFree id) s)

/-! ### Jobs and the water stop -/

/-- R149: JOB-OPEN. -/
def takeJobOpen (job : Nat) (s : State) : State :=
  if (s.jobEntry job).isNone = true ∧ jobRoom s.cost.jobs = 0 then reply .jobOpen .full .none s
  else queueCommand .jobOpen (.jobOpen job) s

/-- R149: JOB-OPEN. -/
def execJobOpen (job : Nat) (s : State) : Host.Outcome State Fault Refusal :=
  .next (gate .jobOpen (jobOk job) (takeJobOpen job) s)

/-- R150: JOB-CLOSE. -/
def takeJobClose (job : Nat) (s : State) : State :=
  if (s.jobEntry job).isNone = true then reply .jobClose .unknown .none s
  else queueCommand .jobClose (.jobClose job) s

/-- R150: JOB-CLOSE. -/
def execJobClose (job : Nat) (s : State) : Host.Outcome State Fault Refusal :=
  .next (gate .jobClose (jobOk job) (takeJobClose job) s)

/-- R124: WATER-OVERRIDE. -/
def takeWaterOverride (s : State) : State :=
  if s.water.stop = false then reply .waterOverride .wrongState .none s
  else queueCommand .waterOverride .waterOverride s

/-- R124: WATER-OVERRIDE. -/
def execWaterOverride (s : State) : Host.Outcome State Fault Refusal :=
  .next (gate .waterOverride true takeWaterOverride s)

end Sys2Proof.Machine
end

