-- ==== Sys2Proof/Machine/LineEvents.lean ====
section
/-! DEFINITION. The meanings of the shop line's events: a frame dropped (R162), a duplicate number (R172), the end
of the quiet wait (R166, R167), the clean echo (R168), the echo that differs (R169, R170), the end of a deferral
(R169) and of the line test (R174). -/

namespace Sys2Proof.Machine

/-- R162, R174: a frame that fails a check is counted, by a station that has joined the line. -/
def frameFails (bytes : List Byte) (s : State) : State :=
  atFrameEnd (fun s => if (frameFault bytes).isSome = true then countReceiveError s else s) s

/-- R162: FRAME_DROPPED. -/
def execFrameDropped (bytes : List Byte) (s : State) : Host.Outcome State Fault Refusal :=
  .next (frameFails bytes s)

/-- R172: a frame with the own number, accepted while the station is not SENDING. -/
def duplicateSeen (s : State) : State := atFrameEnd duplicateHeard s

/-- R172: DUPLICATE_NUMBER. -/
def execDuplicateNumber (s : State) : Host.Outcome State Fault Refusal := .next (duplicateSeen s)

/-- R166, R167: QUIET_WAIT_ELAPSED; the operand tells whether the line is still quiet after a withdrawal. -/
def execQuietWaitElapsed (stillQuiet : Bool) (s : State) : Host.Outcome State Fault Refusal :=
  .next (quietElapsed stillQuiet s)

/-- R168: CLEAN_ECHO. -/
def execCleanEcho (s : State) : Host.Outcome State Fault Refusal := .next (echoClean s)

/-- R169, R170: ECHO_MISMATCH. -/
def execEchoMismatch (s : State) : Host.Outcome State Fault Refusal := .next (echoDiffers s)

/-- R169: DEFERRAL_END. -/
def execDeferralEnd (s : State) : Host.Outcome State Fault Refusal := .next (deferralEnds s)

/-- R174: LINE_TEST_END. -/
def execLineTestEnd (loop : LoopEnd) (s : State) : Host.Outcome State Fault Refusal :=
  .next (if s.boot.runState = .loopback then endLineTest loop.received loop.frameUnderWay s else s)

end Sys2Proof.Machine
end

