-- ==== Sys2Proof/Machine/Notices.lean ====
section
/-! DEFINITION. The meanings of the notices of other stations that complete on the shop line (R163): each is
checked and discarded, counted or handed to its owner by `hear`. -/

namespace Sys2Proof.Machine

/-- R6, R10: YARD-IN. -/
def execYardInNotice (sender : Nat) (r : SlabRecord) (s : State) : Host.Outcome State Fault Refusal :=
  .next (hear sender 1 1 (.yardIn r) (applyYardIn r none) s)

/-- R12, R13: CLAIM. -/
def execClaimNotice (sender pre : Nat) (r : SlabRecord) (s : State) : Host.Outcome State Fault Refusal :=
  .next (hear sender 1 1 (.claim pre r) (applyChecked .claim sender pre r none) s)

/-- R15: LAPSE. -/
def execLapseNotice (sender pre : Nat) (r : SlabRecord) (s : State) : Host.Outcome State Fault Refusal :=
  .next (hear sender 1 1 (.lapse pre r) (applyChecked .lapse sender pre r none) s)

/-- R16, R17, R20, R25: FREE. -/
def execFreeNotice (sender : Nat) (why : FreeReason) (pre : Nat) (r : SlabRecord) (s : State) :
    Host.Outcome State Fault Refusal :=
  .next (hear sender 1 1 (.free why pre r) (applyChecked (.free why) sender pre r none) s)

/-- R18: LOAD. -/
def execLoadNotice (sender pre : Nat) (r : SlabRecord) (s : State) : Host.Outcome State Fault Refusal :=
  .next (hear sender 1 1 (.load pre r) (applyChecked .load sender pre r none) s)

/-- R21: a fragment of a SPLIT. -/
def execSplitNotice (sender index count pre : Nat) (rs : List SlabRecord) (s : State) :
    Host.Outcome State Fault Refusal :=
  .next (hear sender index count (.split pre rs) (applySplit sender pre rs) s)

/-- R24: SCRAP. -/
def execScrapNotice (sender pre : Nat) (r : SlabRecord) (s : State) : Host.Outcome State Fault Refusal :=
  .next (hear sender 1 1 (.scrap pre r) (applyChecked .scrap sender pre r none) s)

/-- R27: STOCK-ASK. -/
def execStockAskNotice (sender : Nat) (s : State) : Host.Outcome State Fault Refusal :=
  .next (hear sender 1 1 .stockAsk (applyStockAsk sender) s)

/-- R28: a fragment of a STOCK-STATE. -/
def execStockStateNotice (sender index count : Nat) (rs : List SlabRecord) (s : State) :
    Host.Outcome State Fault Refusal :=
  .next (hear sender index count (.stockState rs) (applyStockState rs) s)

/-- R109 to R112: DRAW. -/
def execDrawNotice (sender request : Nat) (lock : Bool) (grant : Nat) (s : State) :
    Host.Outcome State Fault Refusal :=
  .next (hear sender 1 1 (.draw request lock grant) (applyDraw sender request lock grant) s)

/-- R120, R121: PLANT. -/
def execPlantNotice (sender capacity fresh : Nat) (stop stale : Bool) (s : State) :
    Host.Outcome State Fault Refusal :=
  .next (hear sender 1 1 (.plant capacity fresh stop stale) (applyPlant sender capacity fresh stop stale) s)

/-- R125: WATER-OVERRIDE. -/
def execWaterOverrideNotice (sender : Nat) (s : State) : Host.Outcome State Fault Refusal :=
  .next (hear sender 1 1 .waterOverride (applyOverride none) s)

/-- R148: TALLY. -/
def execTallyNotice (sender : Nat) (t : Tally) (s : State) : Host.Outcome State Fault Refusal :=
  .next (hear sender 1 1 (.tally t) (applyTally sender t) s)

/-- R151: JOB-OPEN. -/
def execJobOpenNotice (sender job : Nat) (s : State) : Host.Outcome State Fault Refusal :=
  .next (hear sender 1 1 (.jobOpen job) (applyJobOpen job none) s)

/-- R151: JOB-CLOSE. -/
def execJobCloseNotice (sender job : Nat) (s : State) : Host.Outcome State Fault Refusal :=
  .next (hear sender 1 1 (.jobClose job) (applyJobClose job none) s)

/-- R26, R118, R163: RESTART: the stock unit's part and the water unit's. -/
def applyRestart (sender : Nat) (s : State) : State := removeDraw sender (restartStock sender s)

/-- R26, R118: RESTART. -/
def execRestartNotice (sender : Nat) (s : State) : Host.Outcome State Fault Refusal :=
  .next (hear sender 1 1 .restart (applyRestart sender) s)

end Sys2Proof.Machine
end

