-- ==== Sys2Proof/Machine/PlantCommands.lean ====
section
/-! DEFINITION. The meaning of the plant command PLANT-REPORT (R131). -/

namespace Sys2Proof.Machine

/-- R131: the reply shows the figures worked and whether the announcement test queued or refreshed a notice. -/
def plantReportBody (p : Plant) (announced : Bool) : ReplyBody :=
  .plantReport p.capacity p.fresh p.stop announced

/-- R131: a report is accepted, the announcement test made, and the command answered. -/
def takePlantReport (level clarifier makeup : Nat) (s : State) : State :=
  let s1 := acceptReport level clarifier makeup s
  reply .plantReport .ok (plantReportBody s1.plant (announces s1)) (announceTest s1)

/-- R131: PLANT-REPORT. -/
def execPlantReport (level clarifier makeup : Nat) (s : State) : Host.Outcome State Fault Refusal :=
  .next (gate .plantReport (plantReportOk clarifier makeup) (takePlantReport level clarifier makeup) s)

end Sys2Proof.Machine
end

