-- ==== Sys2Proof/Machine/PortCommands.lean ====
section
/-! DEFINITION. The meanings of the port commands of every role: STATUS (R186), QUERY-SLAB and QUERY-JOB (R157),
STOCK-LIST (R187), LOG-READ (R155), FAULT-READ and FAULT-ACK (R198), CLEAR (R196), LINE-TEST (R174) and
CONFIG-WRITE (R195). -/

namespace Sys2Proof.Machine

/-! ### STATUS -/

/-- R79, R186: the saw group. The current step, which the spec does not define, is the step IN PROGRESS while the cut state
is CUTTING or SUSPENDED: none in PLANNED, and none once an abort has ended the step (DESIGN CHOICE, log 42). -/
def sawStatus (s : State) : SawStatus :=
  let step := if midStep s.cut.state = true then s.plan.plan.bind currentStep else none
  { state := s.cut.state, held := s.cut.held, step := step
    doneLength := match s.plan.plan, step with | some p, some k => stepDone p k | _, _ => 0
    parked := s.cut.parked, priming := s.cut.priming, waiting := s.cut.waiting
    window := s.stock.window, blade := s.cut.blade }

/-- R132, R197: the report age: shop time less the time stored with the report. Where shop time has returned to 0 since,
the difference is counted across that return, modulo 4,294,967,296 (DESIGN CHOICE, log 47). -/
def reportAge (now : Nat) (r : PlantReport) : Nat := (now + 4294967296 - r.time) % 4294967296

/-- R186: the plant group. -/
def plantStatus (s : State) : PlantStatus :=
  { report := s.plant.report, age := s.plant.report.map (reportAge s.now)
    capacity := s.plant.capacity, fresh := s.plant.fresh, stop := s.plant.stop, stale := s.plant.stale
    reference := s.plant.announced.map (·.capacity) }

/-- R126: the locked sum less capacity, while it is more. -/
def excess (w : Water) : Nat := lockedSum w.draws - w.capacity

/-- R127, R179, R186: the groups of STATUS in RUNNING, LISTEN-ONLY and LOOPBACK. -/
def fullStatus (s : State) : FullStatus :=
  { runState := s.boot.runState, role := s.role, station := s.station, epoch := s.boot.epoch
    shopTime := s.now, faults := s.boot.faults
    portErrors := s.port.portErrors, overrun := s.port.overrun, outstanding := s.port.outstanding.isSome
    queueEntries := s.line.queue.length, waiterCount := s.line.waiters.length
    framesSent := s.line.framesSent, deferrals := s.line.deferrals, receiveErrors := s.line.receiveErrors
    stockEntries := s.stock.table.length, jobEntries := s.cost.jobs.length
    logRecords := s.cost.log.length, armed := s.cost.armed
    capacity := s.water.capacity, stop := s.water.stop, stale := s.water.stale, silent := s.water.silent
    fresh := s.water.fresh, ownRequest := s.water.ownRequest, ownGrant := s.ownGrant
    ownLocked := s.ownDraw.locked, drawEntries := s.water.draws.length
    lockedSum := lockedSum s.water.draws, unlockedSum := unlockedSum s.water.draws
    overdraw := s.water.overdraw, excess := excess s.water
    saw := if s.role = .saw then some (sawStatus s) else none
    plant := if s.role = .plant then some (plantStatus s) else none }

/-- R183: the overrun mark is cleared when a STATUS reply that carries it is produced, before that reply enters the
list, so that a signal it displaces sets the mark again (DESIGN CHOICE, log 29). -/
def clearOverrun (s : State) : State := { s with port := { s.port with overrun := false } }

/-- R186: STATUS by run state. -/
def takeStatus (s : State) : State :=
  match s.boot.runState with
  | .starting => reply .status .ok .starting s
  | .configFault =>
    reply .status .ok (.configFault s.boot.faults s.boot.lastFault s.now s.port.portErrors) s
  | .running => reply .status .ok (.status (fullStatus s)) (clearOverrun s)
  | .listenOnly => reply .status .ok (.status (fullStatus s)) (clearOverrun s)
  | .loopback => reply .status .ok (.status (fullStatus s)) (clearOverrun s)

/-- R186: STATUS. -/
def execStatus (s : State) : Host.Outcome State Fault Refusal := .next (gate .status true takeStatus s)

/-! ### Queries -/

/-- R157: QUERY-SLAB from the station's own view. -/
def takeQuerySlab (id : SlabId) (s : State) : State :=
  match s.slab id with
  | some r => reply .querySlab .ok (.slab r) s
  | none =>
    match s.cfg.unknownMode with
    | .report => reply .querySlab .unknown .none s
    | .quiet => reply .querySlab .ok (.slabAbsent id) s

/-- R157: QUERY-SLAB. -/
def execQuerySlab (id : SlabId) (s : State) : Host.Outcome State Fault Refusal :=
  .next (gate .querySlab (slabIdOk id) (takeQuerySlab id) s)

/-- R157: QUERY-JOB from the station's own view. -/
def takeQueryJob (job : Nat) (s : State) : State :=
  match s.jobEntry job with
  | some e => reply .queryJob .ok (.job e) s
  | none =>
    match s.cfg.unknownMode with
    | .report => reply .queryJob .unknown .none s
    | .quiet => reply .queryJob .ok .jobAbsent s

/-- R157: QUERY-JOB. -/
def execQueryJob (job : Nat) (s : State) : Host.Outcome State Fault Refusal :=
  .next (gate .queryJob (jobOk job) (takeQueryJob job) s)

/-- R187: filter 0 is for all states, 1 FREE to 5 SCRAPPED for one. -/
def matchesFilter (filter : Nat) (r : SlabRecord) : Bool :=
  decide (filter = 0) || decide (slabStateCode r.state = filter)

/-- R187: a listed entry. -/
def listed (r : SlabRecord) : Listed := ⟨r.id, r.state, r.holder.getD 0, r.version⟩

/-- R187: up to `room` listed entries among those at `pos` and after, with the position after the last entry
examined, or 0 at the end of the table. -/
def listPage (filter : Nat) : Nat → Nat → List StockEntry → List Listed × Nat
  | _, _, [] => ([], 0)
  | 0, pos, _ :: _ => ([], pos)
  | room + 1, pos, e :: es =>
    if matchesFilter filter e.slab = true then
      let rest := listPage filter room (pos + 1) es
      (listed e.slab :: rest.1, rest.2)
    else listPage filter (room + 1) (pos + 1) es

/-- R187: up to 16 entries on a page. -/
def pageMax : Nat := 16

/-- R187: STOCK-LIST from a start position. -/
def takeStockList (start filter : Nat) (s : State) : State :=
  let page := listPage filter pageMax start (s.stock.table.drop (start - 1))
  reply .stockList .ok (.stockList s.stock.table.length page.1 page.2) s

/-- R187: STOCK-LIST. -/
def execStockList (start filter : Nat) (s : State) : Host.Outcome State Fault Refusal :=
  .next (gate .stockList (stockListOk start filter) (takeStockList start filter) s)

/-- R155: the oldest records are removed and given in the reply. -/
def takeLogRead (count : Nat) (s : State) : State :=
  let s' := readLog count s
  reply .logRead .ok (.log (s.cost.log.take count) s'.cost.log.length) s'

/-- R155: LOG-READ. -/
def execLogRead (count : Nat) (s : State) : Host.Outcome State Fault Refusal :=
  .next (gate .logRead (within 1 count 8) (takeLogRead count) s)

/-! ### The fault record -/

/-- R198: FAULT-READ answers the flags and the last-fault entry. -/
def takeFaultRead (s : State) : State := reply .faultRead .ok (.faults s.boot.faults s.boot.lastFault) s

/-- R198: FAULT-READ. -/
def execFaultRead (s : State) : Host.Outcome State Fault Refusal := .next (gate .faultRead true takeFaultRead s)

/-- R198: FAULT-ACK clears the flags it names and keeps the last-fault entry. -/
def takeFaultAck (kinds : Nat) (s : State) : State :=
  let flags := clearFlags kinds s.boot.faults
  reply .faultAck .ok (.faultFlags flags) { s with boot := { s.boot with faults := flags } }

/-- R198: FAULT-ACK. -/
def execFaultAck (kinds : Nat) (s : State) : Host.Outcome State Fault Refusal :=
  .next (gate .faultAck true (takeFaultAck kinds) s)

/-! ### CLEAR, LINE-TEST, CONFIG-WRITE -/

/-- R196: CLEAR, refused HOLDING unless the station holds nothing. The units are cleared, the overrun mark among them,
before the reply enters the list (R191; log 29). -/
def takeClear (s : State) : State :=
  if holdsNothing s = true then announceSelf (reply .clear .ok .none (clearReset s))
  else reply .clear .holding .none s

/-- R196: CLEAR. -/
def execClear (s : State) : Host.Outcome State Fault Refusal := .next (gate .clear true takeClear s)

/-- R174: LINE-TEST, taken in RUNNING and LISTEN-ONLY when the station holds nothing on the line. -/
def takeLineTest (s : State) : State :=
  if s.joined = false then reply .lineTest .wrongState .none s
  else if lineClear s = true then keep .lineTest (beginLineTest s)
  else reply .lineTest .holding .none s

/-- R174: LINE-TEST. -/
def execLineTest (s : State) : Host.Outcome State Fault Refusal := .next (gate .lineTest true takeLineTest s)

/-- R195: CONFIG-WRITE, taken in CONFIG FAULT, and otherwise when the station holds nothing. -/
def takeConfigWrite (record : List Byte) (s : State) : State :=
  if s.boot.runState = .configFault ∨ holdsNothing s = true then keep .configWrite (rewriteReset record s)
  else reply .configWrite .holding .none s

/-- R195: CONFIG-WRITE; R180, test 3: its record is 256 bytes. -/
def execConfigWrite (record : List Byte) (s : State) : Host.Outcome State Fault Refusal :=
  .next (gate .configWrite (decide (record.length = 256)) (takeConfigWrite record) s)

end Sys2Proof.Machine
end

