-- ==== Sys2Proof/Machine/PortEvents.lean ====
section
/-! DEFINITION. The meanings of the machine port's events: a frame whose type or length is no command's (R180,
test 3), a dropped command frame (R179), an output frame sent (R183). -/

namespace Sys2Proof.Machine

/-- R180: the reply to a frame that is no command: BUSY by tests 1 and 2 unless its type is that of STATUS, else
BAD FIELD by test 3. -/
def unknownReply (type : Nat) (s : State) : Status :=
  if s.boot.runState = .starting ∧ type ≠ cmdCode .status then .busy
  else if s.port.outstanding.isSome = true ∧ type ≠ cmdCode .status then .busy
  else .badField

/-- R180: a frame whose type is not a command's, or whose body has not the length its fields require. A frame that
is a command is none of this event's (log 6). -/
def takeUnknown (type : Byte) (body : List Byte) (s : State) : State :=
  if (portCommand type.toNat body).isSome = true then s
  else if outputBlocked s.port = true then countPortError s
  else replyNow type.toNat (unknownReply type.toNat s) .none s

/-- R180, test 3: UNKNOWN_COMMAND_TYPE. -/
def execUnknownCommandType (type : Byte) (body : List Byte) (s : State) : Host.Outcome State Fault Refusal :=
  .next (takeUnknown type body s)

/-- R179: bytes before a start mark are discarded and not counted; the frame that follows is dropped for a gap, its
length or its check, or because the output list takes no more. -/
def takeDropped (bytes : List Byte) (gap : Bool) (s : State) : State :=
  if fromMark bytes = [] then s
  else if gap = true ∨ portFrameBad (fromMark bytes) = true ∨ outputBlocked s.port = true then countPortError s
  else s

/-- R179: COMMAND_FRAME_DROPPED. -/
def execCommandFrameDropped (bytes : List Byte) (gap : Bool) (s : State) : Host.Outcome State Fault Refusal :=
  .next (takeDropped bytes gap s)

/-- R183: the last check byte of the frame on the wire has been sent: the frame leaves the list and the next
begins. -/
def frameSent (p : Port) : Port :=
  if p.txBusy = true then startTransmit { p with out := p.out.eraseP (·.begun), txBusy := false } else p

/-- R183: OUTPUT_FRAME_SENT. -/
def execOutputFrameSent (s : State) : Host.Outcome State Fault Refusal :=
  .next { s with port := frameSent s.port }

end Sys2Proof.Machine
end

