-- ==== Sys2Proof/Machine/SawCommands.lean ====
section
/-! DEFINITION. The meanings of the saw commands: claims and loading (R11, R17, R18, R20), plans (R35 to R37, R45,
R48, R51, R188), cuts (R56 to R64), the blade (R73), parking (R76, R77). -/

namespace Sys2Proof.Machine

/-! ### Claims and loading -/

/-- R11: a priority above 7 is clamped. -/
def clampPriority (p : Nat) : Nat := min p 7

/-- R11, check 2: the slab can be claimed, or is held here already, which check 3 answers. -/
def claimable (own priority : Nat) (r : SlabRecord) : Bool :=
  decide (r.state = .free)
    || (decide (r.state = .claimed) && decide (r.holder ≠ some own) && decide (r.priority.getD 0 < priority))
    || heldBy own r

/-- R11, check 4: the claim job is OPEN, or can be created. -/
def claimJobCheck (jobs : List JobEntry) (job : Nat) : Option Status :=
  match findJob jobs job with
  | some e => if e.state = .closed then some .jobClosed else none
  | none => if jobRoom jobs = 0 then some .full else none

/-- R11: the first check of a CLAIM that fails. -/
def claimRefusal (id : SlabId) (job priority : Nat) (s : State) : Option Status :=
  if s.cut.state = .splitting then some .wrongState
  else
    match s.slab id with
    | none => some .unknown
    | some r =>
      if claimable s.station (clampPriority priority) r = false then some .lost
      else if holdsSlab s = true then some .holding
      else claimJobCheck s.cost.jobs job

/-- R11: CLAIM. -/
def takeClaim (id : SlabId) (job priority : Nat) (s : State) : State :=
  match claimRefusal id job priority s, s.slab id with
  | some st, _ => reply .claim st .none s
  | none, some r =>
    queueCommand .claim (.claim r.version (claimedRecord s.station job (clampPriority priority) r)) s
  | none, none => reply .claim .unknown .none s

/-- R11: CLAIM. -/
def execClaim (id : SlabId) (job priority : Nat) (s : State) : Host.Outcome State Fault Refusal :=
  .next (gate .claim (slabIdOk id && jobOk job) (takeClaim id job priority) s)

/-- The slab is CLAIMED by a station (R17, R18). -/
def claimedBy (n : Nat) (r : SlabRecord) : Bool := decide (r.state = .claimed) && decide (r.holder = some n)

/-- The slab is LOADED by a station (R20, R38). -/
def loadedBy (n : Nat) (r : SlabRecord) : Bool := decide (r.state = .loaded) && decide (r.holder = some n)

/-- R17, R18: a command on the station's own claim: UNKNOWN, WRONG STATE, or its notice is queued. -/
def onOwnClaim (c : Cmd) (id : SlabId) (notice : SlabRecord → Notice) (s : State) : State :=
  match s.slab id with
  | none => reply c .unknown .none s
  | some r => if claimedBy s.station r = true then queueCommand c (notice r) s else reply c .wrongState .none s

/-- R17: RELEASE. -/
def takeRelease (id : SlabId) (s : State) : State :=
  onOwnClaim .release id (fun r => .free .released r.version (freedRecord r)) s

/-- R17: RELEASE. -/
def execRelease (id : SlabId) (s : State) : Host.Outcome State Fault Refusal :=
  .next (gate .release (slabIdOk id) (takeRelease id) s)

/-- R18: LOAD. -/
def takeLoad (id : SlabId) (s : State) : State :=
  onOwnClaim .load id (fun r => .load r.version (loadedRecord s.station r)) s

/-- R18: LOAD. -/
def execLoad (id : SlabId) (s : State) : Host.Outcome State Fault Refusal :=
  .next (gate .load (slabIdOk id) (takeLoad id) s)

/-- R20, R48: no step of the plan is completed and no segment charged. -/
def uncut (s : State) : Bool :=
  match s.plan.plan with
  | some p => !cutBegun p
  | none => true

/-- R20: the cut states in which UNLOAD is accepted. -/
def unloadable (s : State) : Bool :=
  decide (s.cut.state = .loaded) || decide (s.cut.state = .staging)
    || (decide (s.cut.state = .planned) && uncut s)

/-- R20: UNLOAD acts on the slab LOADED by this station. -/
def takeUnload (s : State) : State :=
  match s.heldSlab with
  | none => reply .unload .wrongState .none s
  | some r =>
    if loadedBy s.station r = true ∧ unloadable s = true then
      queueCommand .unload (.free .unloaded r.version (freedRecord r)) s
    else reply .unload .wrongState .none s

/-- R20: UNLOAD. -/
def execUnload (s : State) : Host.Outcome State Fault Refusal := .next (gate .unload true takeUnload s)

/-! ### Plans -/

/-- R35: PLAN-BEGIN opens the staging buffer afresh. The cut state is tested before the fields, in R35's order (R180,
log 15). -/
def takePlanBegin (h : PlanHeader) (s : State) : State :=
  if s.cut.state = .loaded ∨ s.cut.state = .staging then
    if planHeaderOk h = true then
      reply .planBegin .ok .none
        (toCut .staging { s with plan := { s.plan with staging := some ⟨h, [], []⟩ } })
    else reply .planBegin .badField .none s
  else reply .planBegin .wrongState .none s

/-- R35: PLAN-BEGIN. -/
def execPlanBegin (h : PlanHeader) (s : State) : Host.Outcome State Fault Refusal :=
  .next (gate .planBegin (slabIdOk h.slab) (takePlanBegin h) s)

/-- R36: a step entry as it is staged. -/
def stageStep (e : StepEntry) : StagedStep := ⟨e.region, (axisOf e.axis).getD .x, e.offset⟩

/-- R36, R177: a leaf entry as it is staged; only a PIECE carries a job and a tag. -/
def stageLeaf (e : LeafEntry) : StagedLeaf :=
  match (leafKindOf e.kind).getD .waste with
  | .piece => ⟨e.region, .piece, e.job, e.tag⟩
  | k => ⟨e.region, k, 0, 0⟩

/-- R36: the part appended to the staging. -/
def appendPart (g : Staging) (steps : List StepEntry) (leaves : List LeafEntry) : Staging :=
  { g with steps := g.steps ++ steps.map stageStep, leaves := g.leaves ++ leaves.map stageLeaf }

/-- R36, R37, R48: the staging is discarded and the cut state returns to LOADED. -/
def dropStaging (s : State) : State := toCut .loaded { s with plan := { s.plan with staging := none } }

/-- R36: PLAN-PART. The cut state is tested before the fields, in R36's order (R180, log 15). -/
def takePlanPart (steps : List StepEntry) (leaves : List LeafEntry) (s : State) : State :=
  match s.cut.state, s.plan.staging with
  | .staging, some g =>
    let g' := appendPart g steps leaves
    if planPartOk steps leaves = false then reply .planPart .badField .none s
    else if 24 < g'.steps.length ∨ 25 < g'.leaves.length then reply .planPart .tooLarge .none (dropStaging s)
    else
      reply .planPart .ok (.counts g'.steps.length g'.leaves.length)
        { s with plan := { s.plan with staging := some g' } }
  | _, _ => reply .planPart .wrongState .none s

/-- R36: PLAN-PART. -/
def execPlanPart (steps : List StepEntry) (leaves : List LeafEntry) (s : State) :
    Host.Outcome State Fault Refusal :=
  .next (gate .planPart true (takePlanPart steps leaves) s)

/-- R38: check 1: the header's slab, LOADED here in the station's view. -/
def loadedHere (s : State) (id : SlabId) : Option SlabRecord :=
  match s.slab id with
  | some r => if loadedBy s.station r = true then some r else none
  | none => none

/-- R37: the nine checks on a staged plan: the plan, or the code and index of the first fault. -/
def judgePlan (s : State) (g : Staging) : Plan ⊕ CheckFault :=
  match loadedHere s g.header.slab with
  | none => .inr (.wrongSlab, 0)
  | some r =>
    match checkPlan s.cfg s.bladeType.kerf r s.cost.jobs s.stock.seqNext g with
    | some f => .inr f
    | none => .inl (formPlan s.cfg s.bladeType.kerf r g)

/-- R45: the jobs a plan names: the charge job, then the piece jobs in order of leaf index. -/
def planJobs (p : Plan) : List Nat := p.header.chargeJob :: (pieceJobs p.leaves).map (·.1)

/-- How many leaves are of a kind. -/
def leafCount (k : LeafKind) (p : Plan) : Nat := (p.leaves.filter fun f => decide (f.kind = k)).length

/-- R45: what the reply to a PLAN-END that passes carries. -/
def planFormedBody (p : Plan) : ReplyBody :=
  .planFormed (p.leaves.filter (·.demoted)).length (leafCount .piece p) (leafCount .remnant p)
    (leafCount .waste p) p.kerf

/-- R45: the plan is formed: its unknown jobs are created and the cut state becomes PLANNED. -/
def adoptPlan (p : Plan) (s : State) : State :=
  (planJobs p).foldl (fun s j => ensureJob j s)
    (toCut .planned { s with plan := { staging := none, plan := some p } })

/-- R37: PLAN-END. -/
def takePlanEnd (s : State) : State :=
  match s.cut.state, s.plan.staging with
  | .staging, some g =>
    match judgePlan s g with
    | .inl p => reply .planEnd .ok (planFormedBody p) (adoptPlan p s)
    | .inr f => reply .planEnd f.1 (.index f.2) (dropStaging s)
  | _, _ => reply .planEnd .wrongState .none s

/-- R37: PLAN-END. -/
def execPlanEnd (s : State) : Host.Outcome State Fault Refusal := .next (gate .planEnd true takePlanEnd s)

/-- R48, R51: an uncut plan and its region table are emptied. -/
def dropUncutPlan (s : State) : State := toCut .loaded { s with plan := { s.plan with plan := none } }

/-- R48: PLAN-DROP by cut state. -/
def takePlanDrop (s : State) : State :=
  if s.cut.state = .staging then reply .planDrop .ok .none (dropStaging s)
  else if s.cut.state = .planned ∧ uncut s = true then reply .planDrop .ok .none (dropUncutPlan s)
  else reply .planDrop .wrongState .none s

/-- R48: PLAN-DROP. -/
def execPlanDrop (s : State) : Host.Outcome State Fault Refusal := .next (gate .planDrop true takePlanDrop s)

/-- R51: how many outcomes are pieces, remnants and waste. -/
def outcomeCountsBody (os : List Outcome) : ReplyBody :=
  .outcomeCounts (os.filter isPiece).length (os.filter isRemnant).length (os.filter isWaste).length

/-- R51, R52: the plan as it stands is resolved and completed, and the PLAN-ABORT answered. -/
def abortPlan (s : State) : State :=
  match s.plan.plan with
  | none => reply .planAbort .wrongState .none s
  | some p => reply .planAbort .ok (outcomeCountsBody (outcomesOf s p)) (complete p s)

/-- R51: PLAN-ABORT by cut state; the done length is used in CUTTING alone. -/
def takePlanAbort (length : Nat) (s : State) : State :=
  match s.cut.state with
  | .staging => reply .planAbort .ok .none (dropStaging s)
  | .planned =>
    if uncut s = true then reply .planAbort .ok .none (dropUncutPlan s) else abortPlan s
  | .cutting => abortPlan (closeSegment length s)
  | .suspended => abortPlan s
  | .empty => reply .planAbort .wrongState .none s
  | .claimed => reply .planAbort .wrongState .none s
  | .loaded => reply .planAbort .wrongState .none s
  | .splitting => reply .planAbort .wrongState .none s

/-- R51: PLAN-ABORT. -/
def execPlanAbort (length : Nat) (s : State) : Host.Outcome State Fault Refusal :=
  .next (gate .planAbort true (takePlanAbort length) s)

/-- R188: the plan as QUERY-PLAN gives it. -/
def viewPlan (p : Plan) (split : Option SplitWork) : PlanView :=
  { header := p.header, kerf := p.kerf, trim := p.trim, minLength := p.minLength, minWidth := p.minWidth
    steps := p.steps, leaves := p.leaves, regions := p.regions, split := split }

/-- R188: QUERY-PLAN by cut state; in SPLITTING with the worked split, for as long as the plan stands. -/
def planQueried (s : State) : Option ReplyBody :=
  match s.cut.state with
  | .staging => s.plan.staging.map .staging
  | .planned => s.plan.plan.map fun p => .plan (viewPlan p none)
  | .cutting => s.plan.plan.map fun p => .plan (viewPlan p none)
  | .suspended => s.plan.plan.map fun p => .plan (viewPlan p none)
  | .splitting => s.plan.plan.map fun p => .plan (viewPlan p p.split)
  | .empty => none
  | .claimed => none
  | .loaded => none

/-- R188: QUERY-PLAN. -/
def takeQueryPlan (s : State) : State :=
  match planQueried s with
  | some b => reply .queryPlan .ok b s
  | none => reply .queryPlan .wrongState .none s

/-- R188: QUERY-PLAN. -/
def execQueryPlan (s : State) : Host.Outcome State Fault Refusal := .next (gate .queryPlan true takeQueryPlan s)

/-! ### Cuts -/

/-- R58: the locking DRAW is queued and the CUT-ASK kept; SILENT in listen-only, FULL while the queue is full. -/
def askLock (s : State) : State :=
  if s.boot.listenOnly = true then reply .cutAsk .silent .none s
  else if queueMax ≤ s.line.queue.length then reply .cutAsk .full .none s
  else keep .cutAsk { s with line := putNotices .ownDraw [drawEntryFor .lock (some .cutAsk) s] s.line }

/-- R60: the suspended step resumes. -/
def resumeCut (s : State) : State :=
  match s.plan.plan with
  | none => reply .cutAsk .wrongState .none s
  | some p =>
    match currentStep p with
    | none => reply .cutAsk .wrongState .none s
    | some k => openSegment p k (reply .cutAsk .ok) s

/-- R56: CUT-ASK by cut state. A WAIT reason sets the waiting mark (R61). -/
def takeCutAsk (s : State) : State :=
  match s.cut.state with
  | .planned =>
    match waitReason s with
    | some st => setMark (reply .cutAsk st .none s)
    | none => askLock s
  | .suspended =>
    if s.water.stop = true then setMark (reply .cutAsk .waitStop .none s) else resumeCut s
  | .cutting => reply .cutAsk .busy .none s
  | .empty => reply .cutAsk .wrongState .none s
  | .claimed => reply .cutAsk .wrongState .none s
  | .loaded => reply .cutAsk .wrongState .none s
  | .staging => reply .cutAsk .wrongState .none s
  | .splitting => reply .cutAsk .wrongState .none s

/-- R56: CUT-ASK. -/
def execCutAsk (s : State) : Host.Outcome State Fault Refusal := .next (gate .cutAsk true takeCutAsk s)

/-- R64: the segment closes and the step is suspended. -/
def suspendCut (length : Nat) (s : State) : State :=
  let s1 := toCut .suspended (closeSegment length s)
  if s1.water.stop = true then setMark s1 else s1

/-- R64: CUT-HALTED. -/
def takeCutHalted (length : Nat) (s : State) : State :=
  if s.cut.state = .cutting then
    reply .cutHalted .ok (figuresBody (closingFigures length s)) (suspendCut length s)
  else reply .cutHalted .wrongState .none s

/-- R64: CUT-HALTED. -/
def execCutHalted (length : Nat) (s : State) : Host.Outcome State Fault Refusal :=
  .next (gate .cutHalted true (takeCutHalted length) s)

/-- R63: the step is DONE: the next is asked for in PLANNED with the lock released (R66), or the plan completes. -/
def endStep (k : Nat) (s : State) : State :=
  match s.plan.plan with
  | none => s
  | some p =>
    let p' := finishStep k p
    let s1 := { s with plan := { s.plan with plan := some p' } }
    if (nextPending p').isSome = true then queueDraw .unlock none (toCut .planned s1) else complete p' s1

/-- R63: CUT-DONE. -/
def takeCutDone (length : Nat) (s : State) : State :=
  match s.cut.state, s.cut.segment with
  | .cutting, some seg =>
    reply .cutDone .ok (figuresBody (closingFigures length s)) (endStep seg.step (closeSegment length s))
  | _, _ => reply .cutDone .wrongState .none s

/-- R63: CUT-DONE. -/
def execCutDone (length : Nat) (s : State) : Host.Outcome State Fault Refusal :=
  .next (gate .cutDone true (takeCutDone length) s)

/-! ### The blade -/

/-- R73, R76: the cut states in which a step stands granted, or the split is under way. -/
def busyCut (c : CutState) : Bool := midStep c || decide (c = .splitting)

/-- R73: in PLANNED the new type's kerf must be the plan's. -/
def kerfDiffers (type : Nat) (s : State) : Bool :=
  decide (s.cut.state = .planned)
    && match s.plan.plan with
      | some p => decide ((s.cfg.blades.getD type BladeType.blank).kerf ≠ p.kerf)
      | none => false

/-- R73: the new blade is recorded; then the own request is worked out again (R107) and the waiting mark
evaluated (R61). -/
def mountBlade (type serial height : Nat) (s : State) : State :=
  { s with cut := { s.cut with
      blade := { type := type, serial := serial, height := height, remainder := 0, seating := true } } }

/-- R73: BLADE-CHANGE. -/
def takeBladeChange (type serial height : Nat) (s : State) : State :=
  if busyCut s.cut.state = true then reply .bladeChange .wrongState .none s
  else if kerfDiffers type s = true then reply .bladeChange .kerfMismatch .none s
  else
    evaluateMark (reworkRequest none (reply .bladeChange .ok .none (mountBlade type serial height s)))

/-- R73: BLADE-CHANGE. -/
def execBladeChange (type serial height : Nat) (s : State) : Host.Outcome State Fault Refusal :=
  .next (gate .bladeChange (bladeChangeOk s.cfg type serial height) (takeBladeChange type serial height) s)

/-! ### Parking -/

/-- R182: the DRAW of a PARK or UNPARK needs a queue entry and finds none. -/
def drawBlocked (l : Line) : Bool := !drawWaiting l && decide (queueMax ≤ l.queue.length)

/-- R76, R77: a change of the parked flag, its DRAW, and the command kept until that DRAW is applied, withdrawn or
lost. -/
def parkWith (c : Cmd) (parked : Bool) (priming : Option Nat) (s : State) : State :=
  if s.boot.listenOnly = true then reply c .silent .none s
  else if drawBlocked s.line = true then reply c .full .none s
  else
    let s1 := { s with cut := { s.cut with parked := parked, priming := priming } }
    keep c (queueDraw .request (some c) { s1 with water := { s1.water with ownRequest := workRequest s1 } })

/-- R76: PARK. -/
def takePark (s : State) : State :=
  if busyCut s.cut.state = true then reply .park .wrongState .none s
  else if s.cut.parked = true then reply .park .ok .none s
  else parkWith .park true none s

/-- R76: PARK. -/
def execPark (s : State) : Host.Outcome State Fault Refusal := .next (gate .park true takePark s)

/-- R77: UNPARK; priming starts with the configured prime time. -/
def takeUnpark (s : State) : State :=
  if s.cut.parked = false then reply .unpark .wrongState .none s
  else parkWith .unpark false (some (s.cfg.primeTime * 10)) s

/-- R77: UNPARK. -/
def execUnpark (s : State) : Host.Outcome State Fault Refusal := .next (gate .unpark true takeUnpark s)

end Sys2Proof.Machine
end

