-- ==== Sys2Proof/Machine/StartUpEvents.lean ====
section
/-! DEFINITION. The meanings of the start-up events: POWER_ON (R193), AUTOLOAD (R193), EPOCH_WRITE_BACK (R194) and
CONFIG_RECORD_WRITE (R195). An answer of the EEPROM outside the part of STARTING it belongs to changes nothing
(log 6). -/

namespace Sys2Proof.Machine

/-- R193: POWER_ON. -/
def execPowerOn (s : State) : Host.Outcome State Fault Refusal := .next (powerUp s)

/-- R193: AUTOLOAD; the operand is the byte address of a missing acknowledge. -/
def execAutoload (noAcknowledgeAt : Option Nat) (s : State) : Host.Outcome State Fault Refusal :=
  .next
    (match s.boot.phase with
      | .reading => recordRead noAcknowledgeAt s
      | .none => s
      | .writingEpoch _ _ => s
      | .writingRecord _ => s)

/-- R194: EPOCH_WRITE_BACK. -/
def execEpochWriteBack (result : EpochWrite) (s : State) : Host.Outcome State Fault Refusal :=
  .next
    (match s.boot.phase with
      | .writingEpoch record epoch => epochWritten result record epoch s
      | .none => s
      | .reading => s
      | .writingRecord _ => s)

/-- R195: CONFIG_RECORD_WRITE; the operand is the byte address of a missing acknowledge. -/
def execConfigRecordWrite (noAcknowledgeAt : Option Nat) (s : State) : Host.Outcome State Fault Refusal :=
  .next
    (match s.boot.phase with
      | .writingRecord bytes => recordWritten noAcknowledgeAt bytes s
      | .none => s
      | .reading => s
      | .writingEpoch _ _ => s)

end Sys2Proof.Machine
end

