-- ==== Sys2Proof/Machine/Timers.lean ====
section
/-! DEFINITION. The meanings of the timers' expiries (R14, R16, R78, R113, R117, R122, R136, R138), the tick that
advances shop time and every running timer (R197), and the expiry that is due (log 2). An expiry of a timer that
does not run changes nothing (log 6). -/

namespace Sys2Proof.Machine

/-! ### Expiries -/

/-- A timer runs in the run states in which timers run (R192). -/
def runs (s : State) (t : Option Nat) : Bool := s.inService && t.isSome

/-- R14: CLAIM_WINDOW_EXPIRY. -/
def execClaimWindowExpiry (s : State) : Host.Outcome State Fault Refusal :=
  .next (if runs s s.stock.window = true then windowExpired s else s)

/-- R16: ORPHAN_WATCH_EXPIRY of an entry. -/
def execOrphanWatchExpiry (id : SlabId) (s : State) : Host.Outcome State Fault Refusal :=
  .next (if s.inService = true then orphanExpired id s else s)

/-- R78: priming ends; in PLANNED the waiting mark is set. -/
def primingEnds (s : State) : State :=
  let s1 := { s with cut := { s.cut with priming := none } }
  if s.cut.state = .planned then setMark s1 else s1

/-- R78: PRIMING_END. -/
def execPrimingEnd (s : State) : Host.Outcome State Fault Refusal :=
  .next (if runs s s.cut.priming = true then primingEnds s else s)

/-- R113: the refresh timer restarts, and a REFRESH is queued when there is anything to refresh. -/
def refreshExpired (s : State) : State :=
  let s1 := { s with water := { s.water with refresh := some 100 } }
  if s.water.ownRequest ≠ 0 ∨ s.ownGrant ≠ 0 ∨ s.ownDraw.locked = true then queueDraw .refresh none s1 else s1

/-- R113: REFRESH_TIMER_EXPIRY. -/
def execRefreshTimerExpiry (s : State) : Host.Outcome State Fault Refusal :=
  .next (if runs s s.water.refresh = true then refreshExpired s else s)

/-- R117: a peer entry with a running age timer. -/
def agesHere (n : Nat) (s : State) : Bool :=
  match findDraw s.water.draws n with
  | some d => d.age.isSome
  | none => false

/-- R117: AGE_TIMER_EXPIRY of a peer entry. -/
def execAgeTimerExpiry (station : Nat) (s : State) : Host.Outcome State Fault Refusal :=
  .next (if s.inService = true ∧ agesHere station s = true then removeDraw station s else s)

/-- R122: PLANT_HEARD_TIMER_EXPIRY. -/
def execPlantHeardTimerExpiry (s : State) : Host.Outcome State Fault Refusal :=
  .next (if runs s s.water.plantHeard = true then plantSilent s else s)

/-- R138: REPORT_TIMER_EXPIRY. -/
def execReportTimerExpiry (s : State) : Host.Outcome State Fault Refusal :=
  .next (if runs s s.plant.reportTimer = true then reportsStale s else s)

/-- R136: ANNOUNCE_TIMER_EXPIRY. -/
def execAnnounceTimerExpiry (s : State) : Host.Outcome State Fault Refusal :=
  .next (if runs s s.plant.announceTimer = true then announceExpired s else s)

/-! ### The tick and what is due -/

/-- A running timer one tick on; it stays at 0, due, until its expiry is taken. -/
def countDown (t : Option Nat) : Option Nat := t.map (· - 1)

/-- R16, R197: an orphan watch one tick on. -/
def tickEntry (e : StockEntry) : StockEntry :=
  { e with watch := e.watch.map fun w => { w with remaining := w.remaining - 1 } }

/-- R192, R197: every timer one tick on. -/
def tickTimers (s : State) : State :=
  { s with
    stock := { s.stock with
      table := s.stock.table.map tickEntry, window := countDown s.stock.window }
    cut := { s.cut with priming := countDown s.cut.priming }
    water := { s.water with
      plantHeard := countDown s.water.plantHeard, refresh := countDown s.water.refresh
      draws := s.water.draws.map fun d => { d with age := countDown d.age } }
    plant := { s.plant with
      reportTimer := countDown s.plant.reportTimer, announceTimer := countDown s.plant.announceTimer } }

/-- R197: shop time advances in every run state and returns to 0 after 4,294,967,295. -/
def advanceTime (s : State) : State :=
  { s with boot := { s.boot with shopTime := (s.boot.shopTime + 1) % 4294967296 } }

/-- R174, R192, R197: shop time advances; the timers run where the units work; a line test ends when one tick has
passed. -/
def tick (s : State) : State :=
  let s1 := if s.inService = true then tickTimers (advanceTime s) else advanceTime s
  if s.boot.runState = .loopback then loopTimeout s1 else s1

/-- The first orphan watch that is due. -/
def dueWatch (t : List StockEntry) : Option Instr :=
  (t.find? fun e => decide (e.watch.map (·.remaining) = some 0)).map fun e => .orphanWatchExpiry e.slab.id

/-- The first age timer that is due. -/
def dueAge (ds : List DrawEntry) : Option Instr :=
  (ds.find? fun d => decide (d.age = some 0)).map fun d => .ageTimerExpiry d.station

/-- The expiry of a timer that has run out. -/
def dueTimer (t : Option Nat) (i : Instr) : Option Instr := if t = some 0 then some i else none

/-- The expiry that is due, in the order the table names the timers (DESIGN CHOICE, log 2): what meets at one tick
may be taken in either order. -/
def dueExpiry (s : State) : Option Instr :=
  if s.inService = false then none
  else
    (dueTimer s.stock.window .claimWindowExpiry).or <|
    (dueWatch s.stock.table).or <|
    (dueTimer s.cut.priming .primingEnd).or <|
    (dueTimer s.water.refresh .refreshTimerExpiry).or <|
    (dueAge s.water.draws).or <|
    (dueTimer s.water.plantHeard .plantHeardTimerExpiry).or <|
    (dueTimer s.plant.reportTimer .reportTimerExpiry).or <|
    dueTimer s.plant.announceTimer .announceTimerExpiry

end Sys2Proof.Machine
end

