-- ==== Sys2Proof/Machine/Dispatch.lean ====
section
/-! DEFINITION. The meaning of every command and event: one arm for each row of spec/opcode_table.json. -/

namespace Sys2Proof.Machine

/-- The effect of a command or event on everything but the queue. -/
def exec (i : Instr) (s : State) : Host.Outcome State Fault Refusal :=
  match i with
  | .status => Sys2Proof.Machine.execStatus s
  | .querySlab id => Sys2Proof.Machine.execQuerySlab id s
  | .queryJob job => Sys2Proof.Machine.execQueryJob job s
  | .stockList start filter => Sys2Proof.Machine.execStockList start filter s
  | .logRead count => Sys2Proof.Machine.execLogRead count s
  | .faultRead => Sys2Proof.Machine.execFaultRead s
  | .faultAck kinds => Sys2Proof.Machine.execFaultAck kinds s
  | .clear => Sys2Proof.Machine.execClear s
  | .lineTest => Sys2Proof.Machine.execLineTest s
  | .configWrite record => Sys2Proof.Machine.execConfigWrite record s
  | .claim id job priority => Sys2Proof.Machine.execClaim id job priority s
  | .release id => Sys2Proof.Machine.execRelease id s
  | .load id => Sys2Proof.Machine.execLoad id s
  | .unload => Sys2Proof.Machine.execUnload s
  | .planBegin header => Sys2Proof.Machine.execPlanBegin header s
  | .planPart steps leaves => Sys2Proof.Machine.execPlanPart steps leaves s
  | .planEnd => Sys2Proof.Machine.execPlanEnd s
  | .planDrop => Sys2Proof.Machine.execPlanDrop s
  | .planAbort length => Sys2Proof.Machine.execPlanAbort length s
  | .cutAsk => Sys2Proof.Machine.execCutAsk s
  | .cutHalted length => Sys2Proof.Machine.execCutHalted length s
  | .cutDone length => Sys2Proof.Machine.execCutDone length s
  | .bladeChange type serial height => Sys2Proof.Machine.execBladeChange type serial height s
  | .park => Sys2Proof.Machine.execPark s
  | .unpark => Sys2Proof.Machine.execUnpark s
  | .queryPlan => Sys2Proof.Machine.execQueryPlan s
  | .plantReport level clarifier makeup => Sys2Proof.Machine.execPlantReport level clarifier makeup s
  | .yardIn cls thickness length width defects value => Sys2Proof.Machine.execYardIn cls thickness length width defects value s
  | .scrap id => Sys2Proof.Machine.execScrap id s
  | .forceFree id => Sys2Proof.Machine.execForceFree id s
  | .jobOpen job => Sys2Proof.Machine.execJobOpen job s
  | .jobClose job => Sys2Proof.Machine.execJobClose job s
  | .waterOverride => Sys2Proof.Machine.execWaterOverride s
  | .unknownCommandType type body => Sys2Proof.Machine.execUnknownCommandType type body s
  | .commandFrameDropped bytes gap => Sys2Proof.Machine.execCommandFrameDropped bytes gap s
  | .outputFrameSent => Sys2Proof.Machine.execOutputFrameSent s
  | .yardInNotice sender record => Sys2Proof.Machine.execYardInNotice sender record s
  | .claimNotice sender pre record => Sys2Proof.Machine.execClaimNotice sender pre record s
  | .lapseNotice sender pre record => Sys2Proof.Machine.execLapseNotice sender pre record s
  | .freeNotice sender reason pre record => Sys2Proof.Machine.execFreeNotice sender reason pre record s
  | .loadNotice sender pre record => Sys2Proof.Machine.execLoadNotice sender pre record s
  | .splitNotice sender index count pre records => Sys2Proof.Machine.execSplitNotice sender index count pre records s
  | .scrapNotice sender pre record => Sys2Proof.Machine.execScrapNotice sender pre record s
  | .stockAskNotice sender => Sys2Proof.Machine.execStockAskNotice sender s
  | .stockStateNotice sender index count records => Sys2Proof.Machine.execStockStateNotice sender index count records s
  | .drawNotice sender request lock grant => Sys2Proof.Machine.execDrawNotice sender request lock grant s
  | .plantNotice sender capacity fresh stop stale => Sys2Proof.Machine.execPlantNotice sender capacity fresh stop stale s
  | .waterOverrideNotice sender => Sys2Proof.Machine.execWaterOverrideNotice sender s
  | .tallyNotice sender tally => Sys2Proof.Machine.execTallyNotice sender tally s
  | .jobOpenNotice sender job => Sys2Proof.Machine.execJobOpenNotice sender job s
  | .jobCloseNotice sender job => Sys2Proof.Machine.execJobCloseNotice sender job s
  | .restartNotice sender => Sys2Proof.Machine.execRestartNotice sender s
  | .frameDropped bytes => Sys2Proof.Machine.execFrameDropped bytes s
  | .duplicateNumber => Sys2Proof.Machine.execDuplicateNumber s
  | .quietWaitElapsed stillQuiet => Sys2Proof.Machine.execQuietWaitElapsed stillQuiet s
  | .cleanEcho => Sys2Proof.Machine.execCleanEcho s
  | .echoMismatch => Sys2Proof.Machine.execEchoMismatch s
  | .deferralEnd => Sys2Proof.Machine.execDeferralEnd s
  | .lineTestEnd loop => Sys2Proof.Machine.execLineTestEnd loop s
  | .claimWindowExpiry => Sys2Proof.Machine.execClaimWindowExpiry s
  | .orphanWatchExpiry id => Sys2Proof.Machine.execOrphanWatchExpiry id s
  | .primingEnd => Sys2Proof.Machine.execPrimingEnd s
  | .refreshTimerExpiry => Sys2Proof.Machine.execRefreshTimerExpiry s
  | .ageTimerExpiry station => Sys2Proof.Machine.execAgeTimerExpiry station s
  | .plantHeardTimerExpiry => Sys2Proof.Machine.execPlantHeardTimerExpiry s
  | .reportTimerExpiry => Sys2Proof.Machine.execReportTimerExpiry s
  | .announceTimerExpiry => Sys2Proof.Machine.execAnnounceTimerExpiry s
  | .powerOn => Sys2Proof.Machine.execPowerOn s
  | .autoload noAcknowledgeAt => Sys2Proof.Machine.execAutoload noAcknowledgeAt s
  | .epochWriteBack result => Sys2Proof.Machine.execEpochWriteBack result s
  | .configRecordWrite noAcknowledgeAt => Sys2Proof.Machine.execConfigRecordWrite noAcknowledgeAt s

end Sys2Proof.Machine
end

