-- ==== Sys2Proof/Machine/Step.lean ====
section
/-! DEFINITION. One step of the station: the command at the front of the queue, or the passing of a tick. -/

namespace Sys2Proof.Machine

/-- The command a word of the table spells, put at the front of the queue; the table spells none (log 1). -/
def State.withFetchWord (s : State) (nbits w : Nat) : State :=
  match decodeTableWord nbits w with
  | some i => { s with pending := i :: s.pending }
  | none => s

/-- One step: the command or event at the front of the queue is taken. With nothing waiting, time passes (DESIGN
CHOICE, log 2): a timer's expiry that is due is taken, or else shop time advances by one tick. -/
def step (s : State) : Host.Outcome State Fault Refusal :=
  match s.pending with
  | i :: rest => exec i { s with pending := rest }
  | [] =>
    match dueExpiry s with
    | some i => exec i s
    | none => .next (tick s)

end Sys2Proof.Machine
end

