-- ==== Sys2Proof/Machine/PortFrames.lean ====
section
/-! DEFINITION. The frames the station sends to its controller as bytes (R178): start mark, length, type, body and
check; the body of a reply is its status code and then its fields in the order the owner rule gives (R189), the body
of a signal its fields (R184). A field whose size the spec gives stands in that layout. For the other fields the spec
gives no size, and no codes for the names in them: width and code are free values (log 32). -/

namespace Sys2Proof.Machine

/-! ### Fields -/

/-- One field of a body. -/
inductive BodyField where
  /-- a field or record whose bytes the spec lays out -/
  | laid (bytes : List Byte)
  /-- a number, of a width the spec does not give -/
  | number (n : Nat)
  /-- a name, of a width and with a code the spec does not give; the index tells the names of one field apart -/
  | name (index : Nat)
deriving DecidableEq, Repr

/-- R177: a number least significant byte first, in a width. -/
def lsbFirst (width n : Nat) : List Byte := (List.range width).map fun i => byte (n / 256 ^ i)

/-- The bytes of the field at a position of a frame of a type. -/
def fieldBytes (type position : Nat) : BodyField → List Byte
  | .laid bytes => bytes
  | .number n => lsbFirst (Config.fieldWidth type position) n
  | .name index => lsbFirst (Config.fieldWidth type position) (Config.nameCode type position index)

/-- R178: the fields one after another in their order. -/
def bodyBytes (type : Nat) (fields : List BodyField) : List Byte :=
  fields.zipIdx.flatMap fun f => fieldBytes type f.2 f.1

/-! ### The fields of records -/

/-- A flag. -/
def flagField (b : Bool) : BodyField := .number (bit b)

/-- R177: an optional field that is absent is sent as zero. -/
def optNumber (n : Option Nat) : BodyField := .number (n.getD 0)

/-- R177: a slab id in five bytes, zero when absent. -/
def idField (id : Option SlabId) : BodyField := .laid (encodeParent id)

/-- R198: every fault kind. -/
def faultKinds : List FaultKind :=
  [.configRead, .configBad, .epochWrite, .dupStation, .lineLost, .stockFull, .jobFull, .logFull, .plantSilent,
    .plantStale, .overdraw]

/-- R198: the fault flags in one number, each at the bit R185 gives it in the field of FAULT-ACK; the spec gives the
flags no layout in a reply (DESIGN CHOICE, log 32). -/
def flagsField (f : FaultFlags) : BodyField :=
  .number ((faultKinds.map fun k => if flagOf f k = true then 2 ^ faultBit k else 0).sum)

/-- R198: the last-fault entry: kind, shop time and detail word; zero while it is empty. -/
def lastFields : Option LastFault → List BodyField
  | none => [.number 0, .number 0, .number 0]
  | some l => [.name (faultBit l.kind), .number l.time, .number l.detail]

/-- R192: the run states by index. -/
def runStateIndex : RunState → Nat
  | .starting => 0
  | .configFault => 1
  | .running => 2
  | .listenOnly => 3
  | .loopback => 4

/-- R193: the role codes; STATUS gives the role in them (DESIGN CHOICE, log 32). -/
def roleCode : Role → Nat
  | .saw => 1
  | .plant => 2
  | .console => 3

/-- R55: the cut states by index. -/
def cutStateIndex : CutState → Nat
  | .empty => 0
  | .claimed => 1
  | .loaded => 2
  | .staging => 3
  | .planned => 4
  | .cutting => 5
  | .suspended => 6
  | .splitting => 7

/-- R142, R157: the job states by index, ABSENT for queries only. -/
def jobStateIndex : JobState → Nat
  | .opened => 1
  | .closed => 2

/-- R71: the blade record. -/
def bladeFields (b : Blade) : List BodyField :=
  [.number b.type, .number b.serial, .number b.height, .number b.remainder, flagField b.seating]

/-- R186: the saw group, zero at another role. -/
def sawFields : Option SawStatus → List BodyField
  | none => .number 0 :: idField none :: List.replicate 12 (.number 0)
  | some w =>
    .name (cutStateIndex w.state) :: idField w.held :: optNumber w.step :: .number w.doneLength
      :: flagField w.parked :: flagField w.priming.isSome :: optNumber w.priming :: flagField w.waiting
      :: optNumber w.window :: bladeFields w.blade

/-- R129: the last report, zero while there is none. -/
def reportFields : Option PlantReport → List BodyField
  | none => [.number 0, .number 0, .number 0, .number 0]
  | some r => [.number r.level, .number r.clarifier, .number r.makeup, .number r.time]

/-- R186: the plant group, zero at another role. -/
def plantFields : Option PlantStatus → List BodyField
  | none => List.replicate 10 (.number 0)
  | some w =>
    reportFields w.report ++ [optNumber w.age, .number w.capacity, .number w.fresh, flagField w.stop,
      flagField w.stale, optNumber w.reference]

/-- R186: the groups of the full STATUS reply, in order; whether a command is outstanding (R179) stands behind the overrun
mark (DESIGN CHOICE, log 46). -/
def statusFields (r : FullStatus) : List BodyField :=
  [.name (runStateIndex r.runState), .number (roleCode r.role), .number r.station, .number r.epoch,
    .number r.shopTime, flagsField r.faults,
    .number r.portErrors, flagField r.overrun, flagField r.outstanding, .number r.queueEntries, .number r.waiterCount,
    .number r.framesSent, .number r.deferrals, .number r.receiveErrors,
    .number r.stockEntries, .number r.jobEntries, .number r.logRecords, flagField r.armed,
    .number r.capacity, flagField r.stop, flagField r.stale, flagField r.silent, .number r.fresh,
    .number r.ownRequest, .number r.ownGrant, flagField r.ownLocked, .number r.drawEntries,
    .number r.lockedSum, .number r.unlockedSum, flagField r.overdraw, .number r.excess]
    ++ sawFields r.saw ++ plantFields r.plant

/-- R186: the fields that depend on an accepted configuration, as CONFIG FAULT sends them: zero. They are those of the
full reply, in its order, that are not given in CONFIG FAULT, but for the overrun mark (DESIGN CHOICE, log 32) and the
outstanding command (DESIGN CHOICE, log 46): three of the station group, five of the line, the tables, the water view,
and the groups of both roles. -/
def unconfiguredFields : List BodyField :=
  List.replicate (3 + 5 + 4 + 13) (.number 0) ++ sawFields none ++ plantFields none

/-- R142, R157: a job entry's fields as R142 lists them behind the number. -/
def jobFields (e : JobEntry) : List BodyField :=
  [.name (jobStateIndex e.state), .number e.time, .number e.water, .number e.wear, .number e.slab,
    .number e.volume, .number e.length, .number e.carry, .number e.pieces, .number e.late, flagField e.gap,
    .number e.lastChange]

/-- R187: a listed entry, its state in the code of R177, which its filter uses (log 32). -/
def listedFields (e : Listed) : List BodyField :=
  [idField (some e.id), .number (slabStateCode e.state), .number e.holder, .number e.version]

/-- R45, R188: a step's status and done length. -/
def stepFields (st : PlanStep) : List BodyField :=
  [.name (match st.status with | .pending => 0 | .inProgress => 1 | .done => 2), .number st.doneLength]

/-- R46, R188: an entry of the region table. -/
def regionFields (r : Region) : List BodyField :=
  [.number r.number, .number r.x, .number r.y, .number r.length, .number r.width, .number r.parent,
    .number r.createdBy, optNumber r.cutBy, optNumber r.leaf,
    .name (match r.status with | .awaiting => 0 | .whole => 1 | .inCut => 2 | .divided => 3 | .leaf => 4)]

/-- R104: an entry of the outcome list: kind, region, area, and value or piece charge. -/
def outcomeFields (o : Outcome) : List BodyField :=
  [.name (match o.kind with | .piece _ _ => 0 | .remnant _ => 1 | .waste => 2), .number o.region,
    .number o.area, .number o.amount]

/-- R104: the outcome list and the loss, while they stand. -/
def splitFields : Option SplitWork → List BodyField
  | none => []
  | some w => w.outcomes.flatMap outcomeFields ++ [.number w.loss]

/-- R188: the plan. The header leads; that the steps and leaves follow it at once as one plan record, and that the sizes
used, each step's progress, the region table and the outcomes come behind it in this order, is not given (DESIGN CHOICE,
log 44). -/
def planFields (v : PlanView) : List BodyField :=
  [.laid (encodePlan v.header v.steps v.leaves), .number v.kerf, .number v.trim, .number v.minLength,
    .number v.minWidth]
    ++ v.steps.flatMap stepFields ++ v.regions.flatMap regionFields ++ splitFields v.split

/-- R59: the cut given to the controller. -/
def cutFields (g : CutGrant) : List BodyField :=
  [.number g.step, .name (axisCode g.axis), .number g.startX, .number g.startY, .number g.length,
    .number g.grant, .number g.feed, .number g.duration]

/-! ### Replies and signals -/

/-- The fields of a reply behind its status code. -/
def replyFields : ReplyBody → List BodyField
  | .none => []
  | .starting => [.name (runStateIndex .starting)]
  | .configFault faults last time errors =>
    .name (runStateIndex .configFault) :: flagsField faults
      :: (lastFields last ++ [.number time, .number errors] ++ unconfiguredFields)
  | .status r => statusFields r
  | .slab r => [.laid (encodeSlab r)]
  | .slabAbsent id => [.laid (encodeAbsentSlab id)]
  | .job e => jobFields e
  | .jobAbsent => .name 0 :: List.replicate 11 (.number 0)
  | .stockList entries listed next => .number entries :: (listed.flatMap listedFields ++ [.number next])
  | .log records held => .number records.length :: (records.map fun r => .laid (encodeLogRecord r)) ++ [.number held]
  | .faults flags last => flagsField flags :: lastFields last
  | .faultFlags flags => [flagsField flags]
  | .slabId id => [idField (some id)]
  | .counts steps leaves => [.number steps, .number leaves]
  | .index index => [.number index]
  | .planFormed demoted pieces remnants wastes kerf =>
    [.number demoted, .number pieces, .number remnants, .number wastes, .number kerf]
  | .outcomeCounts pieces remnants wastes => [.number pieces, .number remnants, .number wastes]
  | .cut g => cutFields g
  | .segment length duration volume wear total =>
    [.number length, .number duration, .number volume, .number wear, .number total]
  | .staging g => [.laid (encodeStaging g), .number g.steps.length, .number g.leaves.length]
  | .plan v => planFields v
  | .plantReport capacity fresh stop announced =>
    [.number capacity, .number fresh, flagField stop, flagField announced]
  | .position p => [.number p]
  | .runState r => [.name (runStateIndex r)]
  | .configFailed kind detail => [.name (faultBit kind), .number detail]

/-- R178, R189: the frame of a reply: its type, its status code, its fields. -/
def replyFrame (r : Reply) : List Byte :=
  portFrame r.type (byte (statusCode r.status) :: bodyBytes r.type (replyFields r.body))

/-- R184: the fields of a signal. -/
def signalFields : Signal → List BodyField
  | .preempted id => [idField (some id)]
  | .lapsed id => [idField (some id)]
  | .clearToCut step => [.number step]
  | .halt step doneBefore => [.number step, .number doneBefore]
  | .logHigh count => [.number count]
  | .fault kind detail time => [.name (faultBit kind), .number detail, .number time]
  | .water grant request locked capacity stop stale =>
    [.number grant, .number request, flagField locked, .number capacity, flagField stop, flagField stale]

/-- R178, R184: the frame of a signal. -/
def signalFrame (sg : Signal) : List Byte := portFrame (signalType sg) (bodyBytes (signalType sg) (signalFields sg))

/-- R178: the bytes of a frame from the station to its controller. -/
def frameBytes : PortFrame → List Byte
  | .reply r => replyFrame r
  | .signal sg => signalFrame sg

/-- R183: the frames the port unit has still to send, in the order it sends them: each whole and without gaps, those
held back while STARTING lasts behind the others. -/
def toTransmit (p : Port) : List (List Byte) :=
  ((p.out.filter fun e => !e.held) ++ p.out.filter (·.held)).map fun e => frameBytes e.frame

end Sys2Proof.Machine
end

