-- ==== Sys2Proof/WellFormed.lean ====
section
/-! DEFINITION. Which commands and events the links can carry: every field within the width its layout gives it
(R160, R175, R177, R178, R185), every sender a station of the line (R160), every list within its limits. -/

namespace Sys2Proof

open Machine

/-- A field of one byte. -/
def isByte (n : Nat) : Bool := decide (n < 256)

/-- A field of two bytes. -/
def isWord (n : Nat) : Bool := decide (n < 65536)

/-- A field of four bytes. -/
def isLong (n : Nat) : Bool := decide (n < 4294967296)

/-- R160: a station's number. -/
def isStation (n : Nat) : Bool := within 1 n 30

/-- R177: the three parts of a slab id. -/
def SlabId.wf (id : SlabId) : Bool := isByte id.origin && isWord id.epoch && isWord id.seq

/-- R177: a defect's four fields. -/
def Defect.wf (d : Defect) : Bool := isWord d.x && isWord d.y && isWord d.length && isWord d.width

/-- R177: an optional number that is present is not 0, since 0 stands for its absence. -/
def optWf (width : Nat → Bool) (o : Option Nat) : Bool :=
  match o with
  | none => true
  | some n => decide (n ≠ 0) && width n

/-- R177: a parent id that is present is not all zero. -/
def parentWf (o : Option SlabId) : Bool :=
  match o with
  | none => true
  | some id => decide (id ≠ ⟨0, 0, 0⟩) && id.wf

/-- R1, R177: a claim priority is present while the slab is held; in another state it is not 0, since 0 stands for
its absence. -/
def priorityWf (r : SlabRecord) : Bool :=
  match r.priority with
  | none => !showsHeld r.state
  | some p => (showsHeld r.state || decide (p ≠ 0)) && isByte p

/-- R177: a state code that names no state is one byte other than 1 to 5. -/
def SlabState.wf : SlabState → Bool
  | .undefined code => isByte code && decide (code = 0 ∨ 5 < code)
  | _ => true

/-- R175: a reason code that names no reason is one byte other than 1 to 4. -/
def FreeReason.wf : FreeReason → Bool
  | .undefined code => isByte code && decide (code = 0 ∨ 4 < code)
  | _ => true

/-- R1, R177: a slab record that its layout can carry. -/
def SlabRecord.wf (r : SlabRecord) : Bool :=
  r.id.wf && parentWf r.parent && isByte r.cls && isByte r.thickness && isWord r.length && isWord r.width
    && decide (r.defects.length ≤ 4) && r.defects.all Defect.wf && isLong r.value && optWf isByte r.holder
    && optWf isWord r.job && priorityWf r && r.state.wf && isByte r.place && isWord r.version

/-- R175: a TALLY's fields. -/
def Tally.wf (t : Tally) : Bool :=
  isWord t.job && isLong t.time && isLong t.water && isLong t.wear && isLong t.slab && isLong t.volume
    && isLong t.length && isWord t.pieces

/-- R171: the records of a fragment fit in its 128 payload bytes. -/
def recordsWf (rs : List SlabRecord) : Bool :=
  !rs.isEmpty && rs.all SlabRecord.wf && decide (4 + (rs.map slabSize).sum ≤ 128)

/-- R175: a notice that its payload can carry. -/
def Machine.Notice.wf : Notice → Bool
  | .yardIn r => r.wf
  | .claim p r => isWord p && r.wf
  | .lapse p r => isWord p && r.wf
  | .free why p r => why.wf && isWord p && r.wf
  | .load p r => isWord p && r.wf
  | .split p rs => isWord p && recordsWf rs
  | .scrap p r => isWord p && r.wf
  | .stockAsk => true
  | .stockState rs => recordsWf rs
  | .draw q _ g => isByte q && isByte g
  | .plant c f _ _ => isWord c && isByte f
  | .waterOverride => true
  | .tally t => t.wf
  | .jobOpen j => isWord j
  | .jobClose j => isWord j
  | .restart => true

/-- R162: a notice heard from a station, in a frame that passes every check. -/
def heardWf (sender index count : Nat) (n : Notice) : Bool :=
  isStation sender && fragmentOk (kindCode n) index count && n.wf

/-- R35, R177: a plan header. -/
def PlanHeader.wf (h : PlanHeader) : Bool := h.slab.wf && isWord h.chargeJob && isByte h.steps && isByte h.leaves

/-- R36, R177: a step entry. -/
def StepEntry.wf (e : StepEntry) : Bool := isByte e.region && isByte e.axis && isWord e.offset

/-- R36, R177: a leaf entry; its kind is two bits. -/
def LeafEntry.wf (e : LeafEntry) : Bool :=
  isByte e.region && decide (e.kind < 4) && isWord e.job && isWord e.tag

/-- R185, R193: the byte address of an EEPROM access. -/
def addressWf (o : Option Nat) : Bool :=
  match o with
  | none => true
  | some a => isByte a

/-- A command or event that can reach the block. -/
def Instr.wf : Instr → Bool
  | .status => true
  | .querySlab id => id.wf
  | .queryJob job => isWord job
  | .stockList start filter => isByte start && isByte filter
  | .logRead count => isByte count
  | .faultRead => true
  | .faultAck kinds => isWord kinds
  | .clear => true
  | .lineTest => true
  | .configWrite record => decide (record.length = 256)
  | .claim id job priority => id.wf && isWord job && isByte priority
  | .release id => id.wf
  | .load id => id.wf
  | .unload => true
  | .planBegin header => header.wf
  | .planPart steps leaves =>
    isByte steps.length && isByte leaves.length && steps.all StepEntry.wf && leaves.all LeafEntry.wf
  | .planEnd => true
  | .planDrop => true
  | .planAbort length => isWord length
  | .cutAsk => true
  | .cutHalted length => isWord length
  | .cutDone length => isWord length
  | .bladeChange type serial height => isByte type && isLong serial && isWord height
  | .park => true
  | .unpark => true
  | .queryPlan => true
  | .plantReport level clarifier makeup => isWord level && isWord clarifier && isWord makeup
  | .yardIn cls thickness length width defects value =>
    isByte cls && isByte thickness && isWord length && isWord width && isByte defects.length
      && defects.all Defect.wf && isLong value
  | .scrap id => id.wf
  | .forceFree id => id.wf
  | .jobOpen job => isWord job
  | .jobClose job => isWord job
  | .waterOverride => true
  | .unknownCommandType _ body => decide (body.length ≤ 1024)
  | .commandFrameDropped _ _ => true
  | .outputFrameSent => true
  | .yardInNotice sender record => heardWf sender 1 1 (.yardIn record)
  | .claimNotice sender pre record => heardWf sender 1 1 (.claim pre record)
  | .lapseNotice sender pre record => heardWf sender 1 1 (.lapse pre record)
  | .freeNotice sender reason pre record => heardWf sender 1 1 (.free reason pre record)
  | .loadNotice sender pre record => heardWf sender 1 1 (.load pre record)
  | .splitNotice sender index count pre records => heardWf sender index count (.split pre records)
  | .scrapNotice sender pre record => heardWf sender 1 1 (.scrap pre record)
  | .stockAskNotice sender => heardWf sender 1 1 .stockAsk
  | .stockStateNotice sender index count records => heardWf sender index count (.stockState records)
  | .drawNotice sender request lock grant => heardWf sender 1 1 (.draw request lock grant)
  | .plantNotice sender capacity fresh stop stale => heardWf sender 1 1 (.plant capacity fresh stop stale)
  | .waterOverrideNotice sender => heardWf sender 1 1 .waterOverride
  | .tallyNotice sender tally => heardWf sender 1 1 (.tally tally)
  | .jobOpenNotice sender job => heardWf sender 1 1 (.jobOpen job)
  | .jobCloseNotice sender job => heardWf sender 1 1 (.jobClose job)
  | .restartNotice sender => heardWf sender 1 1 .restart
  | .frameDropped bytes => (frameFault bytes).isSome
  | .duplicateNumber => true
  | .quietWaitElapsed _ => true
  | .cleanEcho => true
  | .echoMismatch => true
  | .deferralEnd => true
  | .lineTestEnd loop => decide (loop.received.length ≤ 23)
  | .claimWindowExpiry => true
  | .orphanWatchExpiry id => id.wf
  | .primingEnd => true
  | .refreshTimerExpiry => true
  | .ageTimerExpiry station => isStation station
  | .plantHeardTimerExpiry => true
  | .reportTimerExpiry => true
  | .announceTimerExpiry => true
  | .powerOn => true
  | .autoload noAcknowledgeAt => addressWf noAcknowledgeAt
  | .epochWriteBack _ => true
  | .configRecordWrite noAcknowledgeAt => addressWf noAcknowledgeAt

end Sys2Proof
end

