-- ==== Sys2Proof/Safety.lean ====
section
/-! DEFINITION. The terms claims are stated in: when a command reaches its owner, what its fields' ranges are, and
the invariants of the units. -/

namespace Sys2Proof.Machine

/-! ### Commands -/

/-- R180: no drop and none of tests 1, 2, 4 and 5 turns the command away, in RUNNING or LISTEN-ONLY. -/
def Reaches (c : Cmd) (s : State) : Prop :=
  outputBlocked s.port = false ∧ s.joined = true ∧ s.port.outstanding = none ∧ roleAllows c s.role = true

/-- R180, tests 3 and 6: the fields of a command that the port unit tests are in their ranges, or among those clamped
(R190). The fields that R35 and R36 test behind the cut state are not among them. -/
def testedInRange (cfg : ConfigRecord) : Instr → Bool
  | .querySlab id => slabIdOk id
  | .queryJob job => jobOk job
  | .stockList start filter => stockListOk start filter
  | .logRead count => within 1 count 8
  | .configWrite record => decide (record.length = 256)
  | .claim id job _ => slabIdOk id && jobOk job
  | .release id => slabIdOk id
  | .load id => slabIdOk id
  | .planBegin header => slabIdOk header.slab
  | .bladeChange type serial height => bladeChangeOk cfg type serial height
  | .plantReport _ clarifier makeup => plantReportOk clarifier makeup
  | .yardIn cls thickness length width defects value => yardInOk cls thickness length width defects value
  | .scrap id => slabIdOk id
  | .forceFree id => slabIdOk id
  | .jobOpen job => jobOk job
  | .jobClose job => jobOk job
  | _ => true

/-- Every field of a command is in its range or among those clamped: those of R180's tests, and those the owners of
PLAN-BEGIN and PLAN-PART test (R35, R36). -/
def fieldsInRange (cfg : ConfigRecord) (i : Instr) : Bool :=
  testedInRange cfg i
    && (match i with
      | .planBegin header => planHeaderOk header
      | .planPart steps leaves => planPartOk steps leaves
      | _ => true)

/-- The outgoing queue takes a command's notice (R182): room for it, and not listen-only. -/
def QueueOpen (s : State) : Prop := s.boot.listenOnly = false ∧ s.line.queue.length < queueMax

/-- R164, R166: an entry joins a queue with room, and an idle line unit begins its quiet wait. -/
def withEntry (e : QEntry) (l : Line) : Line :=
  { l with queue := l.queue ++ [e], access := if l.access = .idle then .waitQuiet else l.access }

/-- R182: a command's notice has joined the queue and the command is kept. -/
def Queued (c : Cmd) (n : Notice) (s : State) : State :=
  { s with
    port := { s.port with outstanding := some c }
    line := withEntry (entry n (some c)) s.line }

/-- R182: a command whose checks have passed and whose notice needs the line: SILENT in listen-only, FULL while the
queue holds 12 entries, otherwise queued and kept. -/
def Placed (c : Cmd) (n : Notice) (s : State) : State :=
  if s.boot.listenOnly = true then reply c .silent .none s
  else if queueMax ≤ s.line.queue.length then reply c .full .none s
  else Queued c n s

/-! ### Cutting -/

/-- R59: the cut that a grant of step k on its region gives, with `done` of it cut before. -/
def cutReply (st : PlanStep) (r : Region) (k done grant feed : Nat) : CutGrant :=
  { step := k, axis := st.axis
    startX := match st.axis with | .x => r.x + st.offset | .y => r.x + done
    startY := match st.axis with | .x => r.y + done | .y => r.y + st.offset
    length := (match st.axis with | .x => r.width | .y => r.length) - done
    grant := grant, feed := feed
    duration := duration ((match st.axis with | .x => r.width | .y => r.length) - done) feed }

/-! ### Hearing -/

/-- R159, R162, R172: a frame of another station, heard from its beginning, is handed to its owner. -/
def Heard (sender index count : Nat) (n : Notice) (s : State) : Prop :=
  s.joined = true ∧ s.line.access ≠ .sending ∧ s.line.midFrame = false ∧ 1 ≤ sender ∧ sender ≤ 30 ∧ sender ≠ s.station
    ∧ fragmentOk (kindCode n) index count = true ∧ noticeFits n = true

/-- The event of a heard notice of a kind that carries a precondition, with one record. -/
def stockEvent (k : StockKind) (sender pre : Nat) (r : SlabRecord) : Instr :=
  match k with
  | .claim => .claimNotice sender pre r
  | .lapse => .lapseNotice sender pre r
  | .free why => .freeNotice sender why pre r
  | .load => .loadNotice sender pre r
  | .splitParent => .splitNotice sender 1 1 pre [r]
  | .scrap => .scrapNotice sender pre r

/-- The notice such an event hears. -/
def stockNotice (k : StockKind) (pre : Nat) (r : SlabRecord) : Notice :=
  match k with
  | .claim => .claim pre r
  | .lapse => .lapse pre r
  | .free why => .free why pre r
  | .load => .load pre r
  | .splitParent => .split pre [r]
  | .scrap => .scrap pre r

/-! ### Invariants of the units -/

/-- R111: the unlocked grants fit in the room the locked ones leave, and no grant exceeds its request. -/
def WaterFits (s : State) : Prop :=
  unlockedSum s.water.draws ≤ s.water.capacity - lockedSum s.water.draws
    ∧ ∀ d ∈ s.water.draws, d.granted ≤ d.requested

/-- R106: the draw table is in ascending order of station number and holds the own entry. -/
def DrawsOrdered (s : State) : Prop :=
  s.water.draws.Pairwise (fun a b => a.station < b.station) ∧ ∃ d ∈ s.water.draws, d.station = s.station

/-- R164 to R166: the queue holds at most 12 entries; waiters, each with a notice to place, stand only beside a
full queue; the line unit is idle exactly while the queue is empty. -/
def LineOrdered (s : State) : Prop :=
  s.line.queue.length ≤ 12 ∧ (s.line.waiters ≠ [] → s.line.queue.length = 12)
    ∧ (∀ w ∈ s.line.waiters, w.notices ≠ []) ∧ (s.line.access = .idle ↔ s.line.queue = [])

/-- R4, R29: the stock table holds at most 200 entries, no two of one slab, and the counter has issued at most
65535. -/
def StockBounded (s : State) : Prop :=
  s.stock.table.length ≤ 200 ∧ (s.stock.table.map (·.slab.id)).Nodup ∧ 1 ≤ s.stock.seqNext
    ∧ s.stock.seqNext ≤ 65536

/-- R142, R153: the job table holds at most 64 entries, no two of one job, and the log at most 128 records. -/
def CostBounded (s : State) : Prop :=
  s.cost.jobs.length ≤ 64 ∧ (s.cost.jobs.map (·.job)).Nodup ∧ s.cost.log.length ≤ 128

/-- R71: the wear remainder is below 10,000,000. -/
def WearBounded (s : State) : Prop := s.cut.blade.remainder < 10000000

/-- R34, R61, R62: a segment is open exactly in CUTTING, the staging buffer exactly in STAGING; the waiting mark
stands in PLANNED and SUSPENDED alone, a plan from PLANNED to SPLITTING alone. -/
def CutConsistent (s : State) : Prop :=
  (s.cut.segment.isSome = true ↔ s.cut.state = .cutting)
    ∧ (s.plan.staging.isSome = true ↔ s.cut.state = .staging)
    ∧ (s.cut.waiting = true → s.cut.state = .planned ∨ s.cut.state = .suspended)
    ∧ (s.plan.plan.isSome = true → planStands s.cut.state = true)

/-- R176, R179, R197: the counters stay in their ranges. -/
def CountersBounded (s : State) : Prop :=
  s.boot.shopTime ≤ 4294967295 ∧ s.port.portErrors ≤ 65535 ∧ s.line.framesSent ≤ 4294967295
    ∧ s.line.deferrals ≤ 4294967295 ∧ s.line.receiveErrors ≤ 4294967295

end Sys2Proof.Machine
end

