-- ==== Sys2Proof/Certificates/Slice0/Obligations.lean ====
section
/-! DEFINITION. The statements for the provers. Each docstring names the rules of spec/ a statement rests on. -/

open Sys2Proof Sys2Proof.Machine

/-! ### The step -/

/-- One step takes the command at the front of the queue: exec of it, on the state with the queue's rest. -/
def Obligations.StepTakesFront : Prop :=
  ∀ (c : Instr) (rest : List Instr) (s : State),
    step { s with pending := c :: rest } = exec c { s with pending := rest }

/-- The model's choice (log 2): with nothing waiting a due expiry is taken, or one tick passes. R197: shop time is
advanced, and where the units work every running timer has one tick less to run; in STARTING and CONFIG FAULT nothing
else moves (R192). An expiry is due exactly while a timer of a station in service has run out. R174: a tick ends a line
test, as FAIL at a position the model leaves free (log 33), as is whether a frame is then in progress (log 37). -/
def Obligations.StepPassesTime : Prop :=
  ∀ s : State, s.pending = [] →
    (∀ i, dueExpiry s = some i → step s = exec i s)
    ∧ (dueExpiry s = none → step s = .next (tick s))
    ∧ (s.boot.shopTime < 4294967295 → (tick s).boot.shopTime = s.boot.shopTime + 1)
    ∧ (s.boot.shopTime = 4294967295 → (tick s).boot.shopTime = 0)
    ∧ (s.inService = false → tick s = { s with boot := { s.boot with shopTime := (tick s).boot.shopTime } })
    ∧ (s.joined = true → tick s = { s with
        boot := { s.boot with shopTime := (tick s).boot.shopTime }
        stock := { s.stock with
          table := s.stock.table.map fun e =>
            { e with watch := e.watch.map fun w => { w with remaining := w.remaining - 1 } }
          window := s.stock.window.map (· - 1) }
        cut := { s.cut with priming := s.cut.priming.map (· - 1) }
        water := { s.water with
          plantHeard := s.water.plantHeard.map (· - 1), refresh := s.water.refresh.map (· - 1)
          draws := s.water.draws.map fun d => { d with age := d.age.map (· - 1) } }
        plant := { s.plant with
          reportTimer := s.plant.reportTimer.map (· - 1)
          announceTimer := s.plant.announceTimer.map (· - 1) } })
    ∧ (s.boot.runState = .loopback → s.port.outstanding = some .lineTest →
        (tick s).boot.runState = (if s.boot.listenOnly = true then .listenOnly else .running)
        ∧ (tick s).line.driving = [] ∧ (tick s).port.outstanding = none
        ∧ (∃ n, 1 ≤ n ∧ n ≤ 23
          ∧ PortFrame.reply ⟨0x89, .fail, .position n⟩ ∈ (tick s).port.out.map (·.frame))
        ∧ (tick s).stock.window = s.stock.window.map (· - 1)
        ∧ (tick s).water.refresh = s.water.refresh.map (· - 1))
    ∧ (dueExpiry s = none ↔ s.inService = false
      ∨ (s.stock.window ≠ some 0 ∧ (∀ e ∈ s.stock.table, ∀ w, e.watch = some w → w.remaining ≠ 0)
        ∧ s.cut.priming ≠ some 0 ∧ s.water.refresh ≠ some 0 ∧ (∀ d ∈ s.water.draws, d.age ≠ some 0)
        ∧ s.water.plantHeard ≠ some 0 ∧ s.plant.reportTimer ≠ some 0 ∧ s.plant.announceTimer ≠ some 0))
    ∧ (∀ i, dueExpiry s = some i → s.inService = true
      ∧ ((i = .claimWindowExpiry ∧ s.stock.window = some 0)
        ∨ (∃ e ∈ s.stock.table, ∃ w, e.watch = some w ∧ w.remaining = 0 ∧ i = .orphanWatchExpiry e.slab.id)
        ∨ (i = .primingEnd ∧ s.cut.priming = some 0) ∨ (i = .refreshTimerExpiry ∧ s.water.refresh = some 0)
        ∨ (∃ d ∈ s.water.draws, d.age = some 0 ∧ i = .ageTimerExpiry d.station)
        ∨ (i = .plantHeardTimerExpiry ∧ s.water.plantHeard = some 0)
        ∨ (i = .reportTimerExpiry ∧ s.plant.reportTimer = some 0)
        ∨ (i = .announceTimerExpiry ∧ s.plant.announceTimer = some 0)))

/-- Every command and event answers a next state and leaves the rest of the queue as it stands. -/
def Obligations.CommandsKeepQueue : Prop :=
  ∀ (i : Instr) (s : State), ∃ t, exec i s = .next t ∧ t.pending = s.pending

/-! ### Invariants -/

/-- The invariants hold right after power-on. -/
def Obligations.InvariantsAtReset : Prop :=
  WaterFits State.reset ∧ DrawsOrdered State.reset ∧ LineOrdered State.reset ∧ StockBounded State.reset
    ∧ CostBounded State.reset ∧ WearBounded State.reset ∧ CutConsistent State.reset
    ∧ CountersBounded State.reset

/-- R111: the grants fit, and R106: the draw table keeps its order and its own entry, after every step. -/
def Obligations.StepKeepsWaterView : Prop :=
  ∀ s t : State, step s = .next t → (WaterFits s → WaterFits t) ∧ (DrawsOrdered s → DrawsOrdered t)

/-- R164 to R166: the queue, its waiters and the access state stay consistent. -/
def Obligations.StepKeepsLineOrdered : Prop :=
  ∀ s t : State, LineOrdered s → step s = .next t → LineOrdered t

/-- R4, R29: the stock table and the sequence counter stay in their bounds. -/
def Obligations.StepKeepsStockBounded : Prop :=
  ∀ s t : State, StockBounded s → step s = .next t → StockBounded t

/-- R142, R153: the job table and the cost log stay in their bounds. -/
def Obligations.StepKeepsCostBounded : Prop :=
  ∀ s t : State, CostBounded s → step s = .next t → CostBounded t

/-- R34, R61, R62: segment, staging, plan and waiting mark go with the cut state; R71: the wear remainder stays
below 10,000,000. -/
def Obligations.StepKeepsCutUnit : Prop :=
  ∀ s t : State, step s = .next t → (CutConsistent s → CutConsistent t) ∧ (WearBounded s → WearBounded t)

/-- R176, R179, R197: the counters stay in their ranges. -/
def Obligations.StepKeepsCountersBounded : Prop :=
  ∀ s t : State, CountersBounded s → step s = .next t → CountersBounded t

/-! ### Frames -/

/-- R160, R161, R175, R177: what a frame carries is read back from its bytes, for every notice with every field at
every value its layout admits. That codes the layouts do not name, numbers out of range and a priority of a record not
held are read back as carried is the model's choice (log 12). R159, R162: a receiver takes up a frame with the first
byte behind a quiet interval and discards bytes to the next one; a frame comes to its event at its last byte, one cut
short at the quiet interval that ends it. That a wrong first byte and a length above 128 come to theirs at that byte is
the model's choice (log 37). -/
def Obligations.LineFrameRoundTrip : Prop :=
  (∀ (sender index count : Nat) (n : Notice), isStation sender = true →
    fragmentOk (kindCode n) index count = true → n.wf = true →
    decodeFrame (encodeFrame sender index count n) = some (sender, index, count, n)
    ∧ ∀ rest : List LineInput, lineReceive (.taking []) (lineBytes (encodeFrame sender index count n) ++ rest)
      = noticeEvent sender index count n :: lineReceive .untilQuiet rest)
  ∧ (∀ rest : List LineInput,
    lineReceive (.taking []) (.quiet :: rest) = lineReceive (.taking []) rest
    ∧ (∀ bytes : List Byte,
      lineReceive .untilQuiet (lineBytes bytes ++ .quiet :: rest) = lineReceive (.taking []) rest)
    ∧ (∀ b : Byte, b ≠ 0xB4#8 →
      lineReceive (.taking []) (.byte b :: rest) = .frameDropped [b] :: lineReceive .untilQuiet rest)
    ∧ (∀ part : List Byte, part.head? = some 0xB4#8 →
      (part.length < 5 ∨ (rd8 part 4 ≤ 128 ∧ part.length < 7 + rd8 part 4)) →
      lineReceive (.taking []) (lineBytes part ++ .quiet :: rest)
        = .frameDropped part :: lineReceive (.taking []) rest)
    ∧ (∀ frame : List Byte, frame.head? = some 0xB4#8 →
      ((frame.length = 5 ∧ 128 < rd8 frame 4)
        ∨ (rd8 frame 4 ≤ 128 ∧ frame.length = 7 + rd8 frame 4 ∧ frameFault frame ≠ none)) →
      lineReceive (.taking []) (lineBytes frame ++ rest)
        = .frameDropped frame :: lineReceive .untilQuiet rest))

/-- R177, R178, R184, R185, R189: the frames of the machine port. A command is read back from its type and body. A
frame to the controller is start mark, length, type, body and check; a reply's body leads with its status code, a
signal has its type, and a slab id, a slab record, a plan or log records stand in them in their layouts; frames not
held back go out in the order of the list. The widths of the other fields are free values (log 32). That the steps and
leaves of a plan follow its header at once, before the sizes, is the model's choice (log 44). -/
def Obligations.CommandRoundTrip : Prop :=
  (∀ (i : Instr) (type : Nat) (body : List Byte), i.wf = true → encodeCommand i = some (type, body) →
    portCommand type body = some i)
  ∧ (∀ f : PortFrame, ∃ (type : Byte) (body : List Byte),
    let covered : List Byte := [byte body.length, byte (body.length / 256), type] ++ body
    frameBytes f = [0x5A#8] ++ covered ++ [(check covered).extractLsb' 8 8, (check covered).extractLsb' 0 8]
    ∧ (∀ r : Reply, f = .reply r → type = byte r.type
      ∧ ∃ fields : List Byte, body = byte (statusCode r.status) :: fields
        ∧ (r.body = .none → fields = [])
        ∧ (∀ id, r.body = .slabId id → fields = encodeSlabId id)
        ∧ (∀ slab, r.body = .slab slab → fields = encodeSlab slab)
        ∧ (∀ id, r.body = .slabAbsent id → fields = encodeSlabId id ++ List.replicate 25 0#8)
        ∧ (∀ g, r.body = .staging g → ∃ more, fields = encodePlanHeader g.header
          ++ g.steps.flatMap encodeStagedStep ++ g.leaves.flatMap encodeStagedLeaf ++ more)
        ∧ (∀ v, r.body = .plan v → ∃ more, fields = encodePlanHeader v.header
          ++ v.steps.flatMap encodePlanStep ++ v.leaves.flatMap encodePlanLeaf ++ more)
        ∧ (∀ records held, r.body = .log records held → ∃ number more,
          fields = number ++ records.flatMap encodeLogRecord ++ more))
    ∧ (∀ sg : Signal, f = .signal sg →
      (∀ id, sg = .preempted id → type = 0xF1#8 ∧ body = encodeSlabId id)
      ∧ (∀ id, sg = .lapsed id → type = 0xF2#8 ∧ body = encodeSlabId id)
      ∧ (∀ k, sg = .clearToCut k → type = 0xF3#8) ∧ (∀ k d, sg = .halt k d → type = 0xF4#8)
      ∧ (∀ n, sg = .logHigh n → type = 0xF5#8) ∧ (∀ k d n, sg = .fault k d n → type = 0xF6#8)
      ∧ (∀ g q l c st sl, sg = .water g q l c st sl → type = 0xF7#8)))
  ∧ (∀ p : Port, (∀ e ∈ p.out, e.held = false) → toTransmit p = p.out.map fun e => frameBytes e.frame)

/-! ### The output list -/

/-- R183: a reply is always added at the tail, and with 16 frames in the list the oldest signal not yet begun is
discarded for it and the overrun mark set; a new WATER takes the place of any earlier one; a signal finding 16
frames is discarded and the overrun mark set; no reply is ever discarded. That a 17th frame leaves the overrun mark as
it is, and that a WATER already begun leaves the list too, are the model's choice (log 9). -/
def Obligations.OutputListRules : Prop :=
  ∀ s : State,
    (∀ (c : Cmd) (st : Status) (b : ReplyBody),
      let t := reply c st b s
      let f : PortFrame := .reply ⟨replyType (cmdCode c), st, b⟩
      ((s.port.out.length < 16 ∨ s.port.out.any displaceable = false) →
        t.port.out.map (·.frame) = s.port.out.map (·.frame) ++ [f] ∧ t.port.overrun = s.port.overrun)
      ∧ (16 ≤ s.port.out.length → s.port.out.any displaceable = true →
        t.port.out.map (·.frame) = (s.port.out.eraseP displaceable).map (·.frame) ++ [f]
          ∧ t.port.overrun = true)
      ∧ (∀ r : Reply, PortFrame.reply r ∈ s.port.out.map (·.frame) →
        PortFrame.reply r ∈ t.port.out.map (·.frame)))
    ∧ (∀ sg : Signal,
      let t := emit sg s
      let kept := if isWater (.signal sg) = true then s.port.out.filter (fun e => !isWater e.frame) else s.port.out
      (kept.length < 16 →
        t.port.out.map (·.frame) = kept.map (·.frame) ++ [.signal sg] ∧ t.port.overrun = s.port.overrun)
      ∧ (16 ≤ kept.length → t.port.out.map (·.frame) = kept.map (·.frame) ∧ t.port.overrun = true)
      ∧ (isWater (.signal sg) = true → (t.port.out.filter fun e => isWater e.frame).length ≤ 1)
      ∧ (∀ r : Reply, PortFrame.reply r ∈ s.port.out.map (·.frame) →
        PortFrame.reply r ∈ t.port.out.map (·.frame)))

/-- R183: OUTPUT-FRAME-SENT: the frame on the wire leaves the list, and the oldest not held back begins; with none but
held frames left the wire is idle. That the next frame begins in the same event, and that every frame not held back
passes the held ones, are the model's choice (log 9). -/
def Obligations.OutputFrameSent : Prop :=
  ∀ (s : State) (e : OutEntry) (pre post : List OutEntry), s.port.txBusy = true →
    s.port.out = pre ++ e :: post → e.begun = true → (∀ x ∈ pre, x.begun = false) →
    ((∀ x ∈ pre ++ post, x.held = true) →
      exec .outputFrameSent s = .next { s with port := { s.port with out := pre ++ post, txBusy := false } })
    ∧ (∀ (before : List OutEntry) (x : OutEntry) (after : List OutEntry), pre ++ post = before ++ x :: after →
      (∀ h ∈ before, h.held = true) → x.held = false →
      exec .outputFrameSent s = .next { s with port := { s.port with
        out := before ++ { x with begun := true } :: after, txBusy := true } })

/-! ### What a command meets -/

/-- R179: a dropped frame adds one to the port-error counter, up to 65535, and does nothing else: COMMAND-FRAME-
DROPPED for a gap, a length or a check, and any command that finds 16 frames without a signal to displace. Bytes
before a start mark are discarded, and bytes without one are no frame. In what is received one event comes of each
frame, at its last check byte whatever follows it: its command, or UNKNOWN-COMMAND-TYPE, or its drop for the check,
for a gap within it, or for a length above 1024; after it the next start mark is looked for. That a length above 1024
drops the frame at the length's last byte is the model's choice (log 36). -/
def Obligations.DroppedFrameCounts : Prop :=
  (∀ s : State,
    let dropped : State := { s with port := { s.port with portErrors := min (s.port.portErrors + 1) 65535 } }
    (∀ (skipped frame : List Byte) (gap : Bool), (∀ b ∈ skipped, b ≠ 0x5A#8) → frame.head? = some 0x5A#8 →
      (gap = true ∨ 1024 < rd16 frame 1 ∨ portFrameBad frame = true ∨ outputBlocked s.port = true) →
      exec (.commandFrameDropped (skipped ++ frame) gap) s = .next dropped)
    ∧ (∀ (bytes : List Byte) (gap : Bool), (∀ b ∈ bytes, b ≠ 0x5A#8) →
      exec (.commandFrameDropped bytes gap) s = .next s)
    ∧ (∀ (i : Instr) (c : Cmd), commandOf i = some c → 16 ≤ s.port.out.length →
      (∀ e ∈ s.port.out, isSignal e.frame = true → e.begun = true) → exec i s = .next dropped))
  ∧ (∀ rest : List PortByte,
    (∀ skipped : List PortByte, (∀ b ∈ skipped, b.byte ≠ 0x5A#8) → portEvents (skipped ++ rest) = portEvents rest)
    ∧ (∀ (type : Byte) (body : List Byte), body.length ≤ 1024 →
      portEvents (ungapped (portFrame type.toNat body) ++ rest)
        = (portCommand type.toNat body).getD (.unknownCommandType type body) :: portEvents rest)
    ∧ (∀ frame : List Byte, frame.head? = some 0x5A#8 → rd16 frame 1 ≤ 1024 → frame.length = 6 + rd16 frame 1 →
      frame.drop (4 + rd16 frame 1) ≠ checkBytes ((frame.drop 1).take (3 + rd16 frame 1)) →
      portEvents (ungapped frame ++ rest) = .commandFrameDropped frame false :: portEvents rest)
    ∧ (∀ lo hi : Byte, 1024 < lo.toNat + 256 * hi.toNat →
      portEvents (ungapped [0x5A#8, lo, hi] ++ rest)
        = .commandFrameDropped [0x5A#8, lo, hi] false :: portEvents rest)
    ∧ (∀ (part : List Byte) (b : Byte), part.head? = some 0x5A#8 →
      (part.length < 3 ∨ (rd16 part 1 ≤ 1024 ∧ part.length < 6 + rd16 part 1)) →
      portEvents (ungapped part ++ ⟨true, b⟩ :: rest)
        = .commandFrameDropped part true :: portEvents (⟨true, b⟩ :: rest)))

/-- R180: tests 1, 2, 4, 5 and 6 in their order, for every command of R185: the reply is the first test's that applies,
and nothing else changes. Which fields of PLAN-BEGIN and PLAN-PART are left to their owner's order (log 15), that test 6
comes before every other owner's checks (log 15), and that a serial above 99,999,999 fails it (log 19), are the model's
readings. -/
def Obligations.CommandTests : Prop :=
  ∀ (i : Instr) (c : Cmd) (s : State), commandOf i = some c → outputBlocked s.port = false →
    (s.boot.runState = .starting → c ≠ .status → exec i s = .next (reply c .busy .none s))
    ∧ (s.boot.runState ≠ .starting → c ≠ .status → s.port.outstanding ≠ none →
      exec i s = .next (reply c .busy .none s))
    ∧ (s.boot.runState = .configFault → s.port.outstanding = none →
      c ≠ .status → c ≠ .faultRead → c ≠ .configWrite → exec i s = .next (reply c .wrongState .none s))
    ∧ (s.joined = true → s.port.outstanding = none → (∃ r, cmdRole c = some r ∧ r ≠ s.role) →
      exec i s = .next (reply c .wrongRole .none s))
    ∧ (Reaches c s → testedInRange s.cfg i = false → exec i s = .next (reply c .badField .none s))

/-- R180, test 3: a type or length that is no command's is answered BAD FIELD, or BUSY by tests 1 and 2; the type of
the reply to a type of 80 hexadecimal or above is the model's choice (log 28). R181: READY is asserted in RUNNING,
LISTEN-ONLY and CONFIG FAULT, with no command outstanding and fewer than 12 queue entries. -/
def Obligations.UnknownCommandAnswered : Prop :=
  ∀ s : State,
    (∀ (type : Byte) (body : List Byte), portCommand type.toNat body = none → outputBlocked s.port = false →
      ((s.boot.runState ≠ .starting ∧ s.port.outstanding = none) ∨ type = 1#8 →
        exec (.unknownCommandType type body) s = .next (replyNow type.toNat .badField .none s))
      ∧ (type ≠ 1#8 → s.boot.runState = .starting ∨ s.port.outstanding ≠ none →
        exec (.unknownCommandType type body) s = .next (replyNow type.toNat .busy .none s)))
    ∧ (s.ready = true ↔
      (s.boot.runState = .running ∨ s.boot.runState = .listenOnly ∨ s.boot.runState = .configFault)
        ∧ s.port.outstanding = none ∧ s.line.queue.length < 12)

/-! ### Commands of every role -/

/-- R126, R127, R132, R179, R183, R186, R197: STATUS is answered OK in every run state; it changes nothing but the
overrun mark, and the full reply gives every figure as it stands, the group of another role left out. That the replies
of STARTING and CONFIG FAULT leave the overrun mark set is the model's reading (log 23). That the mark is cleared before
the reply enters the list (log 29), that the current step is the one IN PROGRESS in CUTTING and SUSPENDED and none
elsewhere (log 42), that the full reply tells whether a command is outstanding (log 46), and that the report age is
counted across the return of shop time to 0 (log 47), are its choices. -/
def Obligations.StatusAnswered : Prop :=
  ∀ s : State,
    (outputBlocked s.port = false →
      (s.boot.runState = .starting → exec .status s = .next (reply .status .ok .starting s))
      ∧ (s.boot.runState = .configFault →
        exec .status s = .next
          (reply .status .ok (.configFault s.boot.faults s.boot.lastFault s.boot.shopTime s.port.portErrors) s))
      ∧ (s.boot.runState ≠ .starting → s.boot.runState ≠ .configFault →
        exec .status s = .next
          (reply .status .ok (.status (fullStatus s)) { s with port := { s.port with overrun := false } })))
    ∧ (let r := fullStatus s
      let locked : Nat := ((s.water.draws.filter (·.locked)).map (·.granted)).sum
      let free : Nat := ((s.water.draws.filter fun d => !d.locked).map (·.granted)).sum
      (r.runState = s.boot.runState ∧ r.role = s.role ∧ r.station = s.station ∧ r.epoch = s.boot.epoch
        ∧ r.shopTime = s.boot.shopTime ∧ r.faults = s.boot.faults)
      ∧ (r.portErrors = s.port.portErrors ∧ r.overrun = s.port.overrun ∧ r.queueEntries = s.line.queue.length
        ∧ r.outstanding = decide (s.port.outstanding ≠ none)
        ∧ r.waiterCount = s.line.waiters.length ∧ r.framesSent = s.line.framesSent
        ∧ r.deferrals = s.line.deferrals ∧ r.receiveErrors = s.line.receiveErrors)
      ∧ (r.stockEntries = s.stock.table.length ∧ r.jobEntries = s.cost.jobs.length
        ∧ r.logRecords = s.cost.log.length ∧ r.armed = s.cost.armed)
      ∧ (r.capacity = s.water.capacity ∧ r.stop = s.water.stop ∧ r.stale = s.water.stale
        ∧ r.silent = s.water.silent ∧ r.fresh = s.water.fresh ∧ r.ownRequest = s.water.ownRequest
        ∧ r.ownGrant = s.ownGrant ∧ r.ownLocked = s.ownDraw.locked ∧ r.drawEntries = s.water.draws.length
        ∧ r.lockedSum = locked ∧ r.unlockedSum = free ∧ r.overdraw = s.water.overdraw
        ∧ r.excess = locked - s.water.capacity)
      ∧ (s.role ≠ .saw → r.saw = none)
      ∧ (s.role = .saw → ∃ w, r.saw = some w ∧ w.state = s.cut.state ∧ w.held = s.cut.held
        ∧ w.parked = s.cut.parked ∧ w.priming = s.cut.priming ∧ w.waiting = s.cut.waiting
        ∧ w.window = s.stock.window ∧ w.blade = s.cut.blade
        ∧ (s.cut.state = .cutting ∨ s.cut.state = .suspended →
          ∀ p k st, s.plan.plan = some p → p.steps[k]? = some st → st.status = .inProgress →
            (∀ j st', j < k → p.steps[j]? = some st' → st'.status ≠ .inProgress) →
            w.step = some (k + 1) ∧ w.doneLength = st.doneLength)
        ∧ ((s.cut.state ≠ .cutting ∧ s.cut.state ≠ .suspended)
            ∨ (∀ p, s.plan.plan = some p → ∀ st ∈ p.steps, st.status ≠ .inProgress) →
          w.step = none ∧ w.doneLength = 0))
      ∧ (s.role ≠ .plant → r.plant = none)
      ∧ (s.role = .plant → ∃ w, r.plant = some w ∧ w.report = s.plant.report ∧ w.capacity = s.plant.capacity
        ∧ w.fresh = s.plant.fresh ∧ w.stop = s.plant.stop ∧ w.stale = s.plant.stale
        ∧ w.reference = s.plant.announced.map (·.capacity)
        ∧ (s.plant.report = none → w.age = none)
        ∧ (∀ a, s.plant.report = some a → a.time ≤ 4294967295 → s.boot.shopTime ≤ 4294967295 →
          w.age = some (if a.time ≤ s.boot.shopTime then s.boot.shopTime - a.time
            else s.boot.shopTime + 4294967296 - a.time))))

/-- R157: QUERY-SLAB and QUERY-JOB answer from the view, unknown numbers as the unknown-record mode gives; job 0 is
BAD FIELD, and in CONFIG FAULT both are WRONG STATE. -/
def Obligations.QueriesAnswered : Prop :=
  ∀ s : State,
    (∀ id : SlabId, Reaches .querySlab s → slabIdOk id = true →
      (∀ r, s.slab id = some r → exec (.querySlab id) s = .next (reply .querySlab .ok (.slab r) s))
      ∧ (s.slab id = none → s.cfg.unknownMode = .report →
        exec (.querySlab id) s = .next (reply .querySlab .unknown .none s))
      ∧ (s.slab id = none → s.cfg.unknownMode = .quiet →
        exec (.querySlab id) s = .next (reply .querySlab .ok (.slabAbsent id) s)))
    ∧ (∀ job : Nat, Reaches .queryJob s → jobOk job = true →
      (∀ e, s.jobEntry job = some e → exec (.queryJob job) s = .next (reply .queryJob .ok (.job e) s))
      ∧ (s.jobEntry job = none → s.cfg.unknownMode = .report →
        exec (.queryJob job) s = .next (reply .queryJob .unknown .none s))
      ∧ (s.jobEntry job = none → s.cfg.unknownMode = .quiet →
        exec (.queryJob job) s = .next (reply .queryJob .ok .jobAbsent s)))
    ∧ (Reaches .queryJob s → exec (.queryJob 0) s = .next (reply .queryJob .badField .none s))
    ∧ (s.boot.runState = .configFault → s.port.outstanding = none → outputBlocked s.port = false →
      (∀ id : SlabId, exec (.querySlab id) s = .next (reply .querySlab .wrongState .none s))
      ∧ (∀ job : Nat, exec (.queryJob job) s = .next (reply .queryJob .wrongState .none s)))

/-- R187: STOCK-LIST: the first 16 matching entries from the start position, in order of entry, and the position
after the last entry examined, or 0 with every match of the rest of the table listed. -/
def Obligations.StockListPages : Prop :=
  ∀ (start filter : Nat) (s : State), Reaches .stockList s →
    (start = 0 ∨ 200 < start ∨ 5 < filter →
      exec (.stockList start filter) s = .next (reply .stockList .badField .none s))
    ∧ (1 ≤ start → start ≤ 200 → filter ≤ 5 →
      let rest := s.stock.table.drop (start - 1)
      let hits (es : List StockEntry) : List Listed :=
        (es.filter fun e => decide (filter = 0) || decide (slabStateCode e.slab.state = filter)).map
          fun e => ⟨e.slab.id, e.slab.state, e.slab.holder.getD 0, e.slab.version⟩
      ∃ (page : List Listed) (next : Nat),
        exec (.stockList start filter) s =
          .next (reply .stockList .ok (.stockList s.stock.table.length page next) s)
        ∧ page = (hits rest).take 16
        ∧ (next = 0 → page = hits rest)
        ∧ (next ≠ 0 → page.length = 16 ∧ start < next ∧ page = hits (rest.take (next - start))
          ∧ next ≤ s.stock.table.length)
        ∧ (s.stock.table.length < start → page = [] ∧ next = 0))

/-- R155, R156: LOG-READ removes the oldest records and gives them in the reply; a disarmed mark is armed when the
count falls below the threshold; a count of 0 or above 8 is BAD FIELD, and CONFIG FAULT WRONG STATE. -/
def Obligations.LogReadRemoves : Prop :=
  ∀ (count : Nat) (s : State),
    (Reaches .logRead s → 1 ≤ count → count ≤ 8 →
      exec (.logRead count) s = .next
        (reply .logRead .ok (.log (s.cost.log.take count) (s.cost.log.length - count))
          { s with cost := { s.cost with
            log := s.cost.log.drop count
            armed := s.cost.armed || decide (s.cost.log.length - count < s.cfg.logThreshold) } }))
    ∧ (Reaches .logRead s → count = 0 ∨ 8 < count →
      exec (.logRead count) s = .next (reply .logRead .badField .none s))
    ∧ (s.boot.runState = .configFault → s.port.outstanding = none → outputBlocked s.port = false →
      exec (.logRead count) s = .next (reply .logRead .wrongState .none s))

/-- R198: a raise sets its flag, keeps the others, replaces the entry, and signals only a flag that was clear;
FAULT-READ changes nothing; FAULT-ACK clears the named flags and keeps the entry. That bits of FAULT-ACK above the last
kind's are passed over is the model's reading (log 19). -/
def Obligations.FaultRecord : Prop :=
  ∀ s : State,
    (∀ (k : FaultKind) (d : Nat),
      flagOf (raise k d s).boot.faults k = true
      ∧ (∀ k', k' ≠ k → flagOf (raise k d s).boot.faults k' = flagOf s.boot.faults k')
      ∧ (raise k d s).boot.lastFault = some ⟨k, s.boot.shopTime, d⟩
      ∧ (flagOf s.boot.faults k = true → (raise k d s).port = s.port)
      ∧ (flagOf s.boot.faults k = false →
        (raise k d s).port = (emit (.fault k d s.boot.shopTime) s).port))
    ∧ (outputBlocked s.port = false → s.port.outstanding = none →
        s.joined = true ∨ s.boot.runState = .configFault →
        exec .faultRead s = .next (reply .faultRead .ok (.faults s.boot.faults s.boot.lastFault) s))
    ∧ (∀ kinds : Nat, Reaches .faultAck s →
      ∃ flags : FaultFlags,
        (∀ k, flagOf flags k = (flagOf s.boot.faults k && !kinds.testBit (faultBit k)))
        ∧ exec (.faultAck kinds) s = .next
          (reply .faultAck .ok (.faultFlags flags) { s with boot := { s.boot with faults := flags } }))

/-- R196: CLEAR empties the views, tables, counters and fault record, clears parked and priming, keeps
configuration, epoch, sequence counter, shop time, blade and listen-only, and is refused HOLDING otherwise. -/
def Obligations.ClearEmpties : Prop :=
  ∀ s : State, Reaches .clear s →
    (holdsNothing s = false → exec .clear s = .next (reply .clear .holding .none s))
    ∧ (holdsNothing s = true → ∃ t, exec .clear s = .next t
      ∧ t.stock = { Stock.reset with seqNext := s.stock.seqNext }
      ∧ t.plan = PlanUnit.reset
      ∧ t.cut = { CutUnit.reset with blade := s.cut.blade }
      ∧ t.cost = Costing.reset
      ∧ t.water = { Water.reset s.station with
          capacity := s.cfg.fallback, plantHeard := some 350, refresh := some 100
          ownRequest := if s.role = .saw then min s.bladeType.q s.cfg.drawCeiling else 0 }
      ∧ t.plant = { Plant.reset with reportTimer := if s.role = .plant then some 300 else none }
      ∧ t.boot = { s.boot with faults := FaultFlags.clear, lastFault := none }
      ∧ t.port.portErrors = 0
      ∧ t.line.framesSent = 0 ∧ t.line.deferrals = 0 ∧ t.line.receiveErrors = 0
      ∧ t.line.midFrame = s.line.midFrame
      ∧ (s.boot.listenOnly = true → t.line.queue = [])
      ∧ (s.boot.listenOnly = false →
        t.line.queue.map (·.notice) =
          [.restart, .stockAsk]
            ++ if t.water.ownRequest = 0 then [] else [.draw t.water.ownRequest false 0]))

/-- R174: LINE-TEST is taken in RUNNING and LISTEN-ONLY when nothing is held on the line, refused HOLDING
otherwise; its end answers PASS when the 23 bytes came back, else FAIL with the position of the first that did
not, and gives back the run state. R159: the station then rejoins the line, where a frame may be in progress. -/
def Obligations.LineTest : Prop :=
  ∀ s : State,
    (Reaches .lineTest s →
      (lineClear s = true → exec .lineTest s = .next
        { s with
          port := { s.port with outstanding := some .lineTest }
          boot := { s.boot with runState := .loopback }
          line := { s.line with driving := testFrame s.station } })
      ∧ (lineClear s = false → exec .lineTest s = .next (reply .lineTest .holding .none s)))
    ∧ (s.boot.runState = .loopback → s.port.outstanding = some .lineTest →
      ∀ (received : List Byte) (underWay : Bool),
        let back : State := { s with
          port := { s.port with outstanding := none }
          boot := { s.boot with runState := if s.boot.listenOnly = true then .listenOnly else .running }
          line := { s.line with driving := [], midFrame := underWay } }
        (received.take 23 = testFrame s.station →
          exec (.lineTestEnd ⟨received, underWay⟩) s = .next (reply .lineTest .pass .none back))
        ∧ (∀ n, n < 23 → received.take n = (testFrame s.station).take n →
          received[n]? ≠ (testFrame s.station)[n]? →
          exec (.lineTestEnd ⟨received, underWay⟩) s = .next (reply .lineTest .fail (.position (n + 1)) back)))

/-! ### Start-up -/

/-- R192, R193: POWER-ON: every unit takes its power-on values; the EEPROM keeps its bytes. The configuration and
epoch in force before any record is taken (log 4), the bytes after a write that power-on cuts short (log 5) and the
own request of 0 until RUNNING (log 35) are the model's choice. -/
def Obligations.PowerOnResets : Prop :=
  ∀ s : State, exec .powerOn s = .next
    { pending := s.pending, freeCount := s.freeCount
      boot :=
        { runState := .starting, phase := .reading, shopTime := 0, config := none, epoch := 0
          advanced := none, listenOnly := false, eeprom := s.boot.eeprom
          faults := ⟨false, false, false, false, false, false, false, false, false, false, false⟩
          lastFault := none }
      port := { outstanding := none, out := [], txBusy := false, portErrors := 0, overrun := false }
      line :=
        { queue := [], waiters := [], access := .idle, driving := [], midFrame := false, framesSent := 0
          deferrals := 0, receiveErrors := 0 }
      stock :=
        { table := [], seqNext := 1, window := none, heldExpiry := false, answerBatch := 0
          answerTouched := false }
      plan := { staging := none, plan := none }
      cut :=
        { state := .empty, held := none, segment := none, waiting := false
          blade := { type := 0, serial := 0, height := 0, remainder := 0, seating := true }
          parked := false, priming := none, splitLeft := 0 }
      water :=
        { capacity := 0, stop := false, stale := false, fresh := 0, plantHeard := none, silent := false
          lastPlant := 0
          draws := [{ station := 0, requested := 0, granted := 0, locked := false, age := none }]
          ownRequest := 0, refresh := none, overdraw := false }
      plant :=
        { report := none, reportTimer := none, capacity := 0, fresh := 0, stop := false, stale := false
          announced := none, announceTimer := none }
      cost := { jobs := [], log := [], armed := true } }

/-- R72, R130, R193, R194: AUTOLOAD: a missing acknowledge ends in CONFIG FAULT with CONFIG_READ and its address, a
record with a wrong field with CONFIG_BAD and the offset of the first such field in record order; otherwise the epoch is
advanced. A field is wrong that lies outside its range or fails a cross-field condition of which it is the later field,
a format mark other than 3C hexadecimal, a sum that disagrees. That plant marks out of order are reported at the later of
the two that break it is the model's choice (log 45). -/
def Obligations.AutoloadChecks : Prop :=
  (∀ s : State, s.boot.phase = .reading → s.boot.runState = .starting →
    (∀ a : Nat, ∃ t, exec (.autoload (some a)) s = .next t
      ∧ t.boot.runState = .configFault ∧ t.boot.lastFault = some ⟨.configRead, s.boot.shopTime, a⟩
      ∧ t.boot.faults.configRead = true ∧ t.boot.config = s.boot.config ∧ t.port.outstanding = none)
    ∧ (∀ o : Nat, firstWrong s.boot.eeprom = some o → ∃ t, exec (.autoload none) s = .next t
      ∧ t.boot.runState = .configFault ∧ t.boot.lastFault = some ⟨.configBad, s.boot.shopTime, o⟩
      ∧ t.boot.faults.configBad = true ∧ t.boot.config = s.boot.config ∧ t.port.outstanding = none)
    ∧ (firstWrong s.boot.eeprom = none →
      let e := rd16 s.boot.eeprom 198
      let e' := if e = 0 ∨ e = 65535 then 1 else e + 1
      exec (.autoload none) s = .next { s with boot := { s.boot with
        phase := .writingEpoch (decodeConfig s.boot.eeprom) e', advanced := some e' } }))
  ∧ (∀ l : List Byte,
    let blade (t o : Nat) : Prop :=
      let b := 3 + 19 * t
      (o = b → 100 ≤ rd16 l o ∧ rd16 l o ≤ 3000) ∧ (o = b + 2 → 10 ≤ rd8 l o ∧ rd8 l o ≤ 200)
      ∧ (o = b + 3 → 30 ≤ rd8 l o ∧ rd8 l o ≤ 100) ∧ (o = b + 4 → 20 ≤ rd8 l o ∧ rd8 l o ≤ 60)
      ∧ (o = b + 5 ∨ o = b + 7 ∨ o = b + 9 ∨ o = b + 11 → rd16 l o ≤ 5000)
      ∧ (o = b + 13 → 200 ≤ rd16 l o ∧ rd16 l o ≤ 2000)
      ∧ (o = b + 15 → 50 ≤ rd16 l o ∧ rd16 l o ≤ 500 ∧ rd16 l o < rd16 l (b + 13))
      ∧ (o = b + 17 → rd16 l o ≤ 10000)
    let good (o : Nat) : Prop :=
      (o = 0 → rd8 l o = 0x3C) ∧ (o = 1 → 1 ≤ rd8 l o ∧ rd8 l o ≤ 30) ∧ (o = 2 → 1 ≤ rd8 l o ∧ rd8 l o ≤ 3)
      ∧ (∀ t, t < 8 → blade t o)
      ∧ (o = 155 → 1 ≤ rd8 l o ∧ rd8 l o ≤ 50) ∧ (o = 156 → rd16 l o ≤ 500)
      ∧ (o = 158 → 1000 ≤ rd16 l o ∧ rd16 l o ≤ 40000) ∧ (o = 160 → 1000 ≤ rd16 l o ∧ rd16 l o ≤ 25000)
      ∧ (o = 162 → 30 ≤ rd16 l o ∧ rd16 l o ≤ 600) ∧ (o = 164 → rd8 l o ≤ 255)
      ∧ (o = 165 → rd16 l o ≤ 2000) ∧ (o = 167 → rd16 l o ≤ 2000 ∧ rd16 l 165 ≤ rd16 l o)
      ∧ (o = 169 → rd16 l o ≤ 1000) ∧ (o = 171 → rd16 l o ≤ 1000 ∧ rd16 l 169 < rd16 l o)
      ∧ (o = 173 → rd16 l o ≤ 1000 ∧ rd16 l 171 ≤ rd16 l o)
      ∧ (o = 175 → rd16 l o ≤ 1000 ∧ rd16 l 173 < rd16 l o)
      ∧ (o = 177 → rd16 l o ≤ 2000) ∧ (o = 179 → 1 ≤ rd16 l o ∧ rd16 l o ≤ 2000)
      ∧ (o = 181 → 30 ≤ rd16 l o ∧ rd16 l o ≤ 500 ∧ ∀ t, t < 8 → rd16 l o ≤ rd16 l (3 + 19 * t))
      ∧ (o = 183 ∨ o = 187 ∨ o = 191 → rd32 l o ≤ 100000) ∧ (o = 195 → 1 ≤ rd8 l o ∧ rd8 l o ≤ 128)
      ∧ (o = 196 → 1 ≤ rd8 l o ∧ rd8 l o ≤ 2) ∧ (o = 197 → 2 ≤ rd8 l o ∧ rd8 l o ≤ 30)
      ∧ (o = 254 → rd16 l o = ((l.take 254).map BitVec.toNat).sum % 65536)
    (firstWrong l = none ↔ ∀ o, good o)
    ∧ (∀ o, firstWrong l = some o ↔ ¬ good o ∧ ∀ o', o' < o → good o'))

/-- R80, R156, R159, R194: EPOCH-WRITE-BACK. Confirmed: the record and the new epoch take effect, the run state is
RUNNING, or LISTEN-ONLY where that flag is set, the station joins the line, where a frame may be in progress, and
RESTART, STOCK-ASK and the first DRAW are queued, or nothing; the high-water mark is armed exactly below the threshold;
a saw keeps its blade record, parked flag and priming, and at another role they stand at their power-on values (the
model's reading of R80 beside R79, log 31). Failed: EPOCH_WRITE is raised with the new epoch and CONFIG FAULT entered;
the EEPROM then holds either epoch, whatever the free value is. -/
def Obligations.EpochWritten : Prop :=
  ∀ (s : State) (record : ConfigRecord) (epoch : Nat) (underWay : Bool),
    s.boot.phase = .writingEpoch record epoch → s.boot.runState = .starting →
    (s.line = Line.reset → ∃ t, exec (.epochWriteBack (.confirmed underWay)) s = .next t
      ∧ t.boot.runState = (if s.boot.listenOnly = true then .listenOnly else .running)
      ∧ t.boot.config = some record ∧ t.boot.epoch = epoch ∧ t.line.midFrame = underWay
      ∧ t.boot.eeprom = withEpoch s.boot.eeprom epoch
      ∧ t.water.capacity = record.fallback ∧ t.water.draws = [DrawEntry.own record.station]
      ∧ t.water.refresh = some 100 ∧ t.water.plantHeard = some 350
      ∧ t.plant.reportTimer = (if record.role = .plant then some 300 else none)
      ∧ t.water.ownRequest =
        (if record.role = .saw then
          if s.cut.parked = true then 0
          else min (record.blades.getD s.cut.blade.type BladeType.blank).q record.drawCeiling
        else 0)
      ∧ t.line.queue.map (·.notice) =
        (if s.boot.listenOnly = true then []
        else [.restart, .stockAsk]
          ++ if t.water.ownRequest = 0 then [] else [.draw t.water.ownRequest false 0])
      ∧ t.stock = s.stock ∧ t.cost.jobs = s.cost.jobs ∧ t.cost.log = s.cost.log
      ∧ t.cut = (if record.role = .saw then s.cut
        else { s.cut with blade := ⟨0, 0, 0, 0, true⟩, parked := false, priming := none })
      ∧ t.cost.armed = decide (s.cost.log.length < record.logThreshold)
      ∧ t.port.outstanding = none)
    ∧ (∀ result : EpochWrite, result = .noAcknowledge ∨ result = .readBackUnequal →
      ∃ t, exec (.epochWriteBack result) s = .next t
      ∧ t.boot.runState = .configFault
      ∧ t.boot.lastFault = some ⟨.epochWrite, s.boot.shopTime, epoch⟩ ∧ t.boot.faults.epochWrite = true
      ∧ (t.boot.eeprom = s.boot.eeprom ∨ t.boot.eeprom = withEpoch s.boot.eeprom epoch)
      ∧ t.boot.config = s.boot.config ∧ t.boot.epoch = s.boot.epoch)

/-- R192, R195: CONFIG-WRITE is taken in CONFIG FAULT and while nothing is held, and stays outstanding in STARTING with
what the reset tables keep, all else at its power-on values, the high-water mark too by the model's reading (log 24).
That the own request is 0 from then until RUNNING or LISTEN-ONLY is entered is the model's choice (log 35). Otherwise it
is refused HOLDING. The end of the record's writing reruns autoload on it, or ends in CONFIG FAULT with CONFIG_READ. -/
def Obligations.ConfigWritten : Prop :=
  ∀ s : State,
    (∀ record : List Byte, record.length = 256 →
      (s.boot.runState = .configFault ∧ s.port.outstanding = none ∧ outputBlocked s.port = false)
        ∨ (Reaches .configWrite s ∧ holdsNothing s = true) →
      ∃ t, exec (.configWrite record) s = .next t
        ∧ t.boot = { s.boot with
            runState := .starting
            phase := .writingRecord
              (match s.boot.advanced with | some e => withEpoch record e | none => record) }
        ∧ t.port = { s.port with outstanding := some .configWrite }
        ∧ t.line = Line.reset ∧ t.plan = PlanUnit.reset ∧ t.plant = Plant.reset
        ∧ t.stock = { Stock.reset with seqNext := s.stock.seqNext }
        ∧ t.cut = { CutUnit.reset with
            blade := s.cut.blade, parked := s.cut.parked, priming := s.cut.priming }
        ∧ t.water = Water.reset s.station
        ∧ t.cost = { s.cost with jobs := [], armed := true })
    ∧ (∀ record : List Byte, record.length = 256 → Reaches .configWrite s → holdsNothing s = false →
      exec (.configWrite record) s = .next (reply .configWrite .holding .none s))
    ∧ (∀ bytes : List Byte, s.boot.phase = .writingRecord bytes →
      exec (.configRecordWrite none) s =
        .next { s with boot := { s.boot with eeprom := bytes, phase := .reading } })
    ∧ (∀ (bytes : List Byte) (a : Nat), s.boot.phase = .writingRecord bytes → s.boot.runState = .starting →
      ∃ t, exec (.configRecordWrite (some a)) s = .next t ∧ t.boot.runState = .configFault
        ∧ t.boot.lastFault = some ⟨.configRead, s.boot.shopTime, a⟩ ∧ t.boot.eeprom.length = 256)

/-- R195: the epoch written into a record is read back from it, and its sum stays right or wrong as it was. -/
def Obligations.EpochKeepsSum : Prop :=
  ∀ (l : List Byte) (e : Nat), l.length = 256 → e < 65536 →
    rd16 (withEpoch l e) 198 = e
    ∧ (rd16 (withEpoch l e) 254 = recordSum (withEpoch l e) ↔ rd16 l 254 = recordSum l)
    ∧ (∀ i, i ≠ 198 → i ≠ 199 → i ≠ 254 → i ≠ 255 → (withEpoch l e)[i]? = l[i]?)

/-! ### Saw commands -/

/-- R11, R182: CLAIM: the checks in their order, and with all passed the CLAIM built from the entry joins the
queue and the command is kept, or it is answered SILENT or FULL. -/
def Obligations.ClaimQueued : Prop :=
  ∀ (id : SlabId) (job priority : Nat) (s : State), Reaches .claim s → slabIdOk id = true → jobOk job = true →
    (∀ r : SlabRecord, QueueOpen s → s.cut.state ≠ .splitting → s.slab id = some r →
      (r.state = .free
        ∨ (r.state = .claimed ∧ r.holder ≠ some s.station ∧ r.priority.getD 0 < min priority 7)) →
      holdsSlab s = false →
      ((∃ e, s.jobEntry job = some e ∧ e.state = .opened)
        ∨ (s.jobEntry job = none ∧ jobRoom s.cost.jobs ≠ 0)) →
      exec (.claim id job priority) s = .next (Queued .claim
        (.claim r.version { r with
          state := .claimed, holder := some s.station, job := some job, priority := some (min priority 7)
          version := versionSucc r.version }) s))
    ∧ exec (.claim id job priority) s = .next
      (if s.cut.state = .splitting then reply .claim .wrongState .none s
      else match s.slab id with
        | none => reply .claim .unknown .none s
        | some r =>
          if ¬ (r.state = .free
            ∨ (r.state = .claimed ∧ r.holder ≠ some s.station ∧ r.priority.getD 0 < min priority 7)
            ∨ ((r.state = .claimed ∨ r.state = .loaded) ∧ r.holder = some s.station)) then
            reply .claim .lost .none s
          else if holdsSlab s = true then reply .claim .holding .none s
          else if ∃ e, s.jobEntry job = some e ∧ e.state = .closed then reply .claim .jobClosed .none s
          else if s.jobEntry job = none ∧ jobRoom s.cost.jobs = 0 then reply .claim .full .none s
          else Placed .claim
            (.claim r.version { r with
              state := .claimed, holder := some s.station, job := some job
              priority := some (min priority 7), version := versionSucc r.version }) s)

/-- R17, R18, R20, R182: RELEASE, LOAD and UNLOAD: the notice built from the entry joins the queue, or the command is
refused UNKNOWN or WRONG STATE (UNLOAD in every cut state and slab state that does not allow it), or, its checks
passed, SILENT or FULL. -/
def Obligations.OwnSlabCommands : Prop :=
  ∀ s : State,
    (∀ id : SlabId, slabIdOk id = true → Reaches .release s →
      exec (.release id) s = .next (match s.slab id with
        | none => reply .release .unknown .none s
        | some r =>
          if r.state = .claimed ∧ r.holder = some s.station then
            Placed .release (.free .released r.version { r with
              state := .free, holder := none, job := none, priority := none
              version := versionSucc r.version }) s
          else reply .release .wrongState .none s))
    ∧ (∀ id : SlabId, slabIdOk id = true → Reaches .load s →
      exec (.load id) s = .next (match s.slab id with
        | none => reply .load .unknown .none s
        | some r =>
          if r.state = .claimed ∧ r.holder = some s.station then
            Placed .load (.load r.version { r with
              state := .loaded, place := s.station, version := versionSucc r.version }) s
          else reply .load .wrongState .none s))
    ∧ (∀ r : SlabRecord, Reaches .unload s → s.heldSlab = some r → r.state = .loaded →
      r.holder = some s.station →
      (s.cut.state = .loaded ∨ s.cut.state = .staging
        ∨ (s.cut.state = .planned ∧ ∀ p, s.plan.plan = some p → cutBegun p = false)) →
      exec .unload s = .next (Placed .unload (.free .unloaded r.version { r with
        state := .free, holder := none, job := none, priority := none
        version := versionSucc r.version }) s))
    ∧ (Reaches .unload s →
      (s.cut.state = .cutting ∨ s.cut.state = .suspended ∨ s.cut.state = .splitting
        ∨ (s.cut.state = .planned ∧ ∃ p, s.plan.plan = some p ∧ cutBegun p = true)) →
      exec .unload s = .next (reply .unload .wrongState .none s))
    ∧ (Reaches .unload s →
      (s.cut.state = .empty ∨ s.cut.state = .claimed
        ∨ ∀ r, s.heldSlab = some r → ¬ (r.state = .loaded ∧ r.holder = some s.station)) →
      exec .unload s = .next (reply .unload .wrongState .none s))

/-- R34 to R36, R48: PLAN-BEGIN opens the staging afresh, PLAN-PART appends to it or, past the limits, discards it,
PLAN-DROP discards a staging or an uncut plan; each is WRONG STATE elsewhere. A charge job or count of 0, more than 12
entries of a kind, an axis or kind that is none and a PIECE of job 0 are BAD FIELD and change nothing, but only in the
cut states that take the command: that this order of R35 and R36 stands before test 6 of R180 is the model's reading
(log 15). -/
def Obligations.StagingCommands : Prop :=
  ∀ s : State,
    (∀ h : PlanHeader, Reaches .planBegin s → slabIdOk h.slab = true →
      exec (.planBegin h) s = .next
        (if s.cut.state = .loaded ∨ s.cut.state = .staging then
          if h.chargeJob = 0 ∨ 65535 < h.chargeJob ∨ h.steps = 0 ∨ h.leaves = 0 then
            reply .planBegin .badField .none s
          else
            reply .planBegin .ok .none { s with
              cut := { s.cut with state := .staging, waiting := false, segment := none }
              plan := { staging := some ⟨h, [], []⟩, plan := none } }
        else reply .planBegin .wrongState .none s))
    ∧ (∀ (steps : List StepEntry) (leaves : List LeafEntry) (g : Staging), Reaches .planPart s →
      planPartOk steps leaves = true → s.cut.state = .staging → s.plan.staging = some g →
      exec (.planPart steps leaves) s = .next
        (if g.steps.length + steps.length ≤ 24 ∧ g.leaves.length + leaves.length ≤ 25 then
          reply .planPart .ok (.counts (g.steps.length + steps.length) (g.leaves.length + leaves.length))
            { s with plan := { s.plan with staging := some { g with
                steps := g.steps ++ steps.map stageStep, leaves := g.leaves ++ leaves.map stageLeaf } } }
        else
          reply .planPart .tooLarge .none { s with
            cut := { s.cut with state := .loaded, waiting := false, segment := none }
            plan := { staging := none, plan := none } }))
    ∧ (∀ (steps : List StepEntry) (leaves : List LeafEntry) (g : Staging), Reaches .planPart s →
      s.cut.state = .staging → s.plan.staging = some g →
      12 < steps.length ∨ 12 < leaves.length ∨ (∃ e ∈ steps, axisOf e.axis = none)
        ∨ (∃ e ∈ leaves, leafKindOf e.kind = none ∨ (leafKindOf e.kind = some .piece ∧ e.job = 0)) →
      exec (.planPart steps leaves) s = .next (reply .planPart .badField .none s))
    ∧ (∀ (steps : List StepEntry) (leaves : List LeafEntry), Reaches .planPart s → s.cut.state ≠ .staging →
      exec (.planPart steps leaves) s = .next (reply .planPart .wrongState .none s))
    ∧ (Reaches .planDrop s →
      exec .planDrop s = .next
        (if s.cut.state = .staging
            ∨ (s.cut.state = .planned ∧ ∀ p, s.plan.plan = some p → cutBegun p = false) then
          reply .planDrop .ok .none { s with
            cut := { s.cut with state := .loaded, waiting := false, segment := none }
            plan := { staging := none, plan := none } }
        else reply .planDrop .wrongState .none s))

/-- R31 to R33, R37 to R46: PLAN-END with the header's slab LOADED here: the first failing check of 2 to 9 answers with
its code and index and ends the staging; with all passed the plan is formed, its unknown jobs are created in their
order, the cut state is PLANNED and the reply counts the leaves. Another slab is WRONG SLAB, another cut state than
STAGING WRONG STATE. The checks: each is made over the whole plan before the next, and reports the first step, leaf or
region at fault; the regions are those of R31 and R32. The plan as formed: every step PENDING, small remnants demoted,
region 1 WHOLE and every other AWAITING. That it holds the configured trim on a slab of edge kind CUT too is the model's
choice (log 39). -/
def Obligations.PlanEndJudged : Prop :=
  (∀ s : State, Reaches .planEnd s → s.cut.state ≠ .staging →
    exec .planEnd s = .next (reply .planEnd .wrongState .none s))
  ∧ (∀ (s : State) (g : Staging), Reaches .planEnd s → s.cut.state = .staging → s.plan.staging = some g →
    let kerf := s.bladeType.kerf
    let dropped : State := { s with
      cut := { s.cut with state := .loaded, waiting := false, segment := none }
      plan := { staging := none, plan := none } }
    let shut (x : JobEntry) : Bool := decide (x.state = .closed)
    let create (jobs : List JobEntry) (j : Nat) : List JobEntry :=
      let blank : JobEntry :=
        { job := j, state := .opened, time := 0, water := 0, wear := 0, slab := 0, volume := 0, length := 0
          carry := 0, pieces := 0, late := 0, gap := false, lastChange := s.boot.shopTime }
      if jobs.any (fun x => decide (x.job = j)) = true then jobs
      else if jobs.length < 64 then jobs ++ [blank]
      else if jobs.any shut = true then jobs.eraseP shut ++ [blank]
      else jobs
    ((∀ r, s.slab g.header.slab = some r → ¬ (r.state = .loaded ∧ r.holder = some s.station)) →
      exec .planEnd s = .next (reply .planEnd .wrongSlab (.index 0) dropped))
    ∧ (∀ (r : SlabRecord) (code : Status) (index : Nat), s.slab g.header.slab = some r →
      r.state = .loaded → r.holder = some s.station →
      checkPlan s.cfg kerf r s.cost.jobs s.stock.seqNext g = some (code, index) →
      exec .planEnd s = .next (reply .planEnd code (.index index) dropped))
    ∧ (∀ r : SlabRecord, s.slab g.header.slab = some r → r.state = .loaded → r.holder = some s.station →
      checkPlan s.cfg kerf r s.cost.jobs s.stock.seqNext g = none →
      let p := formPlan s.cfg kerf r g
      let kinds (k : LeafKind) : Nat := (p.leaves.filter fun f => decide (f.kind = k)).length
      ∃ t, exec .planEnd s = .next t ∧ t.cut.state = .planned ∧ t.plan.staging = none
        ∧ t.plan.plan = some p
        ∧ PortFrame.reply ⟨0xA6, .ok, .planFormed (p.leaves.filter (·.demoted)).length (kinds .piece)
          (kinds .remnant) (kinds .waste) kerf⟩ ∈ t.port.out.map (·.frame)
        ∧ t.stock = s.stock ∧ t.water = s.water ∧ t.line = s.line ∧ t.cut.blade = s.cut.blade
        ∧ (∀ st ∈ p.steps, st.status = .pending ∧ st.doneLength = 0)
        ∧ (∀ j ∈ planJobs p, ∃ e, t.jobEntry j = some e ∧ e.state = .opened)
        ∧ t.cost.jobs = (p.header.chargeJob
            :: (p.leaves.filter fun f => decide (f.kind = .piece)).map (·.job)).foldl create s.cost.jobs))
  ∧ (∀ (cfg : ConfigRecord) (kerf : Nat) (slab : SlabRecord) (jobs : List JobEntry) (seqNext : Nat) (g : Staging),
    let fault := checkPlan cfg kerf slab jobs seqNext g
    let p := formPlan cfg kerf slab g
    let n := g.steps.length
    let trim : Nat := if slab.edge = .raw then cfg.trim else 0
    let rs := buildRegions kerf 1 g.steps [regionOne slab cfg.trim]
    let step (k : Nat) : Option StagedStep := if k = 0 then none else g.steps[k - 1]?
    let leaf (i : Nat) : Option StagedLeaf := if i = 0 then none else g.leaves[i - 1]?
    let cut (m : Nat) : Prop := ∃ st ∈ g.steps, st.region = m
    let first (bad : Nat → Prop) (k : Nat) : Prop := bad k ∧ ∀ j, j < k → ¬ bad j
    let counts : Prop := 1 ≤ g.header.steps ∧ g.header.steps ≤ 24 ∧ 1 ≤ g.header.leaves ∧ g.header.leaves ≤ 25
      ∧ n = g.header.steps ∧ g.leaves.length = g.header.leaves
    let badRegion (k : Nat) : Prop := ∃ st, step k = some st ∧ (st.region = 0 ∨ 2 * k - 1 < st.region
      ∨ ∃ j st', j < k ∧ step j = some st' ∧ st'.region = st.region)
    let offGrid (k : Nat) : Prop := ∃ st, step k = some st ∧ ¬ cfg.grid ∣ st.offset
    let flat : Prop := slab.length ≤ 2 * trim ∨ slab.width ≤ 2 * trim
    let outside (k : Nat) : Prop := ∃ st r, step k = some st ∧ r ∈ rs ∧ r.number = st.region ∧ (st.offset = 0
      ∨ (match st.axis with | .x => r.length | .y => r.width) ≤ st.offset + kerf
      ∨ 35000 < (match st.axis with | .x => r.width | .y => r.length))
    let extra (i : Nat) : Prop := ∃ f, leaf i = some f ∧ (f.region = 0 ∨ 2 * n + 1 < f.region ∨ cut f.region
      ∨ ∃ j f', j < i ∧ leaf j = some f' ∧ f'.region = f.region)
    let missing (m : Nat) : Prop := 1 ≤ m ∧ m ≤ 2 * n + 1 ∧ ¬ cut m ∧ ∀ f ∈ g.leaves, f.region ≠ m
    let defective (i : Nat) : Prop := ∃ f r, leaf i = some f ∧ f.kind = .piece ∧ r ∈ rs ∧ r.number = f.region
      ∧ ∃ d ∈ slab.defects, max d.x r.x < min (d.x + d.length) (r.x + r.length)
        ∧ max d.y r.y < min (d.y + d.width) (r.y + r.width)
    let small (f : StagedLeaf) : Prop := f.kind = .remnant
      ∧ ∃ r ∈ rs, r.number = f.region ∧ (r.length < cfg.minLength ∨ r.width < cfg.minWidth)
    let names (i j : Nat) : Prop :=
      (i = 0 ∧ j = g.header.chargeJob) ∨ ∃ f, leaf i = some f ∧ f.kind = .piece ∧ j = f.job
    let closed (i : Nat) : Prop := ∃ j e, names i j ∧ findJob jobs j = some e ∧ e.state = .closed
    let room : Nat := (64 - jobs.length) + (jobs.filter fun e => decide (e.state = .closed)).length
    let remnants : Nat := (p.leaves.filter fun f => decide (f.kind = .remnant)).length
    (¬ counts → fault = some (.tooLarge, 0))
    ∧ (counts → (∀ k, first badRegion k → fault = some (.badRegion, k))
      ∧ ((∀ k, ¬ badRegion k) → (∀ k, first offGrid k → fault = some (.offGrid, k))
      ∧ ((∀ k, ¬ offGrid k) → (flat → fault = some (.outOfRegion, 0))
      ∧ (¬ flat → (∀ k, first outside k → fault = some (.outOfRegion, k))
      ∧ ((∀ k, ¬ outside k) → (∀ i, first extra i → fault = some (.leafExtra, i))
      ∧ ((∀ i, ¬ extra i) → (∀ m, first missing m → fault = some (.leafMissing, m))
      ∧ ((∀ m, ¬ missing m) → (∀ i, first defective i → fault = some (.defectInPiece, i))
      ∧ ((∀ i, ¬ defective i) → (∀ i, first closed i → fault = some (.jobClosed, i))
      ∧ ((∀ i, ¬ closed i) → ∀ unknown : List Nat, unknown.Nodup →
          (∀ j, j ∈ unknown ↔ (∃ i, names i j) ∧ findJob jobs j = none) →
          (room < unknown.length → fault = some (.full, 0))
          ∧ (unknown.length ≤ room → (65536 - seqNext < remnants → fault = some (.idExhausted, 0))
            ∧ (remnants ≤ 65536 - seqNext → fault = none)))))))))))
    ∧ ((∀ k, ¬ badRegion k) →
      rs.map (·.number) = List.range' 1 (2 * n + 1)
      ∧ (∃ r ∈ rs, r.number = 1 ∧ r.x = trim ∧ r.y = trim ∧ r.length = slab.length - 2 * trim
        ∧ r.width = slab.width - 2 * trim ∧ r.parent = 0 ∧ r.createdBy = 0)
      ∧ (∀ k st r, step k = some st → r ∈ rs → r.number = st.region →
        ∃ lo ∈ rs, ∃ hi ∈ rs, lo.number = 2 * k ∧ hi.number = 2 * k + 1
          ∧ lo.parent = r.number ∧ hi.parent = r.number ∧ lo.createdBy = k ∧ hi.createdBy = k
          ∧ lo.x = r.x ∧ lo.y = r.y
          ∧ (st.axis = .x → lo.length = st.offset ∧ lo.width = r.width ∧ hi.x = r.x + st.offset + kerf
            ∧ hi.y = r.y ∧ hi.length = r.length - st.offset - kerf ∧ hi.width = r.width)
          ∧ (st.axis = .y → lo.width = st.offset ∧ lo.length = r.length ∧ hi.y = r.y + st.offset + kerf
            ∧ hi.x = r.x ∧ hi.width = r.width - st.offset - kerf ∧ hi.length = r.length))
      ∧ (p.header = g.header ∧ p.kerf = kerf ∧ p.trim = cfg.trim ∧ p.minLength = cfg.minLength
        ∧ p.minWidth = cfg.minWidth ∧ p.segments = 0 ∧ p.split = none)
      ∧ p.steps = g.steps.map (fun st => (⟨st.region, st.axis, st.offset, .pending, 0⟩ : PlanStep))
      ∧ p.leaves.length = g.leaves.length
      ∧ (∀ (i : Nat) (f : StagedLeaf), g.leaves[i]? = some f →
        (small f → p.leaves[i]? = some (⟨f.region, .waste, f.job, f.tag, true⟩ : PlanLeaf))
        ∧ (¬ small f → p.leaves[i]? = some (⟨f.region, f.kind, f.job, f.tag, false⟩ : PlanLeaf)))
      ∧ p.regions.length = 2 * n + 1
      ∧ (∀ (i : Nat) (r : Region), rs[i]? = some r → ∃ cutBy on, p.regions[i]? = some ({ r with
          cutBy := cutBy, leaf := on, status := if r.number = 1 then .whole else .awaiting } : Region)
        ∧ (∀ k, cutBy = some k ↔ ∃ st, step k = some st ∧ st.region = r.number)
        ∧ ((∀ i, ¬ extra i) → ∀ i, on = some i ↔ ∃ f, leaf i = some f ∧ f.region = r.number))))

/-- R48, R50 to R53, R188: PLAN-ABORT by cut state: a staging or an uncut plan is dropped, a begun one is resolved and
completed, after its open segment has been charged in CUTTING; QUERY-PLAN reports and changes nothing, the plan record
leading its body. The resolution: a LEAF region gives what its leaf names, a WHOLE or IN CUT one that meets the minimum
size a remnant, scored when its step has cut into it, and otherwise waste; AWAITING and DIVIDED regions give nothing;
the remnants beyond the ids left become waste; leaf outcomes stand first, by leaf index, the others by region number.
That the steps and leaves follow the header at once as one plan record, and that the counts of a staging follow it, is
the model's choice (log 44). -/
def Obligations.AbortAndQueryPlan : Prop :=
  (∀ s : State,
    (∀ length : Nat, Reaches .planAbort s →
      (s.cut.state = .staging
          ∨ (s.cut.state = .planned ∧ ∀ p, s.plan.plan = some p → cutBegun p = false) →
        exec (.planAbort length) s = .next (reply .planAbort .ok .none { s with
          cut := { s.cut with state := .loaded, waiting := false, segment := none }
          plan := { staging := none, plan := none } }))
      ∧ (∀ p, s.plan.plan = some p →
        (s.cut.state = .suspended ∨ (s.cut.state = .planned ∧ cutBegun p = true)) →
        exec (.planAbort length) s = .next
          (reply .planAbort .ok (outcomeCountsBody (outcomesOf s p)) (complete p s)))
      ∧ (∀ p, s.cut.state = .cutting → (closeSegment length s).plan.plan = some p →
        exec (.planAbort length) s = .next
          (reply .planAbort .ok (outcomeCountsBody (outcomesOf (closeSegment length s) p))
            (complete p (closeSegment length s))))
      ∧ (s.cut.state = .empty ∨ s.cut.state = .claimed ∨ s.cut.state = .loaded ∨ s.cut.state = .splitting →
        exec (.planAbort length) s = .next (reply .planAbort .wrongState .none s)))
    ∧ (Reaches .queryPlan s →
      (∀ g, s.cut.state = .staging → s.plan.staging = some g →
        exec .queryPlan s = .next (reply .queryPlan .ok (.staging g) s)
        ∧ replyFields (.staging g) = [.laid (encodePlanHeader g.header ++ g.steps.flatMap encodeStagedStep
          ++ g.leaves.flatMap encodeStagedLeaf), .number g.steps.length, .number g.leaves.length])
      ∧ (∀ p, (s.cut.state = .planned ∨ s.cut.state = .cutting ∨ s.cut.state = .suspended
          ∨ s.cut.state = .splitting) → s.plan.plan = some p →
        let view : PlanView :=
          { header := p.header, kerf := p.kerf, trim := p.trim, minLength := p.minLength, minWidth := p.minWidth
            steps := p.steps, leaves := p.leaves, regions := p.regions
            split := if s.cut.state = .splitting then p.split else none }
        exec .queryPlan s = .next (reply .queryPlan .ok (.plan view) s)
        ∧ (replyFields (.plan view)).head? = some (.laid (encodePlanHeader p.header
          ++ p.steps.flatMap encodePlanStep ++ p.leaves.flatMap encodePlanLeaf)))
      ∧ (s.cut.state = .splitting → s.plan.plan = none →
        exec .queryPlan s = .next (reply .queryPlan .wrongState .none s))
      ∧ (s.cut.state = .empty ∨ s.cut.state = .claimed ∨ s.cut.state = .loaded →
        exec .queryPlan s = .next (reply .queryPlan .wrongState .none s))))
  ∧ (∀ (s : State) (p : Plan), p.regions.Pairwise (fun a b => a.number < b.number) →
    let os := outcomesOf s p
    let big (r : Region) : Bool := decide (p.minLength ≤ r.length) && decide (p.minWidth ≤ r.width)
    let stands (r : Region) : Bool := decide (r.status = .whole) || decide (r.status = .inCut)
    let wants (r : Region) : Bool := (stands r && big r)
      || (decide (r.status = .leaf) && p.leaves.any fun f => decide (f.region = r.number ∧ f.kind = .remnant))
    let kept (r : Region) : Bool := decide
      ((p.regions.filter fun r' => wants r' && decide (r'.number < r.number)).length < 65536 - s.stock.seqNext)
    let scored (r : Region) : Bool := decide (r.status = .inCut)
      && match r.cutBy with | some k => decide (0 < stepDone p k) | none => false
    (∀ o, o ∈ os ↔
      (∃ i f, p.leaves[i]? = some f ∧ ∃ r ∈ p.regions, r.number = f.region ∧ r.status = .leaf ∧ o =
        { kind := match f.kind with
            | .piece => .piece f.job f.tag
            | .remnant => if kept r = true then .remnant false else .waste
            | .waste => .waste
          region := r.number, leaf := some (i + 1), area := r.length * r.width, amount := 0 })
      ∨ (∃ r ∈ p.regions, stands r = true ∧ o =
        { kind := if big r = true ∧ kept r = true then .remnant (scored r) else .waste
          region := r.number, leaf := none, area := r.length * r.width, amount := 0 }))
    ∧ os.Pairwise (fun a b => match a.leaf, b.leaf with
      | some i, some j => i < j
      | some _, none => True
      | none, some _ => False
      | none, none => a.region < b.region))

/-- R56 to R60, R182: CUT-ASK in PLANNED: the five checks in their order, each setting the waiting mark, then the
locking DRAW with the own grant, or SILENT or FULL; in SUSPENDED WAIT STOP, or the step resumes with a new segment from
its done length, and the reply gives the cut; BUSY in CUTTING, WRONG STATE elsewhere. -/
def Obligations.CutAskAnswered : Prop :=
  ∀ s : State, Reaches .cutAsk s →
    (s.cut.state = .planned → s.cut.parked = false → s.cut.priming = none → s.water.stop = false →
      s.bladeType.wornLimit < s.cut.blade.height → minWetting s.bladeType ≤ s.ownGrant → QueueOpen s →
      exec .cutAsk s = .next { s with
        port := { s.port with outstanding := some .cutAsk }
        line := withEntry { entry (.draw s.water.ownRequest true s.ownGrant) (some .cutAsk) with
          purpose := some .lock } s.line })
    ∧ (s.cut.state = .planned → s.cut.parked = false → s.cut.priming = none → s.water.stop = false →
      s.bladeType.wornLimit < s.cut.blade.height → minWetting s.bladeType ≤ s.ownGrant →
      (s.boot.listenOnly = true → exec .cutAsk s = .next (reply .cutAsk .silent .none s))
      ∧ (s.boot.listenOnly = false → 12 ≤ s.line.queue.length →
        exec .cutAsk s = .next (reply .cutAsk .full .none s)))
    ∧ (s.cut.state = .planned →
      (s.cut.parked = true ∨ s.cut.priming ≠ none ∨ s.water.stop = true
        ∨ s.cut.blade.height ≤ s.bladeType.wornLimit ∨ s.ownGrant < minWetting s.bladeType) →
      exec .cutAsk s = .next
        (let u := reply .cutAsk
            (if s.cut.parked = true then .waitParked
            else if s.cut.priming ≠ none then .waitPriming
            else if s.water.stop = true then .waitStop
            else if s.cut.blade.height ≤ s.bladeType.wornLimit then .waitBlade
            else .waitWater) .none s
        { u with cut := { s.cut with waiting := true } }))
    ∧ (s.cut.state = .suspended → s.water.stop = true →
      exec .cutAsk s = .next
        (let u := reply .cutAsk .waitStop .none s
        { u with cut := { s.cut with waiting := true } }))
    ∧ (∀ (p : Plan) (k : Nat), s.cut.state = .suspended → s.water.stop = false → s.plan.plan = some p →
      currentStep p = some k → ∃ t, exec .cutAsk s = .next t
        ∧ t.cut.state = .cutting ∧ t.cut.waiting = false ∧ t.plan.plan = some p
        ∧ t.cut.segment = some
          { step := k, doneBefore := stepDone p k, grant := s.ownGrant, fresh := s.water.fresh
            seating := s.cut.blade.seating
            feed := effectiveFeed s.bladeType s.cfg.feedFloor s.stone.1 s.stone.2 s.ownGrant
              s.cut.blade.seating }
        ∧ (∀ st r, stepAt p k = some st → findRegion p.regions st.region = some r →
          PortFrame.reply ⟨0xA9, .ok, .cut (cutReply st r k st.doneLength s.ownGrant
            (effectiveFeed s.bladeType s.cfg.feedFloor s.stone.1 s.stone.2 s.ownGrant s.cut.blade.seating))⟩
            ∈ t.port.out.map (·.frame))
        ∧ t.line = s.line ∧ t.water = s.water ∧ t.stock = s.stock ∧ t.cost = s.cost
        ∧ t.cut.blade = s.cut.blade ∧ t.cut.held = s.cut.held)
    ∧ (s.cut.state = .cutting → exec .cutAsk s = .next (reply .cutAsk .busy .none s))
    ∧ (s.cut.state = .empty ∨ s.cut.state = .claimed ∨ s.cut.state = .loaded ∨ s.cut.state = .staging
        ∨ s.cut.state = .splitting →
      exec .cutAsk s = .next (reply .cutAsk .wrongState .none s))

/-- R46, R62 to R64, R67, R71, R92, R143, R145, R146, R153, R154, R156: CUT-HALTED and CUT-DONE close the segment: the
length is clamped to what remains, the blade's height falls by the whole wear and the remainder takes its new value,
seating is cleared, the length joins the step's done length and the figures the plan's sums; the step is suspended, or
DONE with the next one PLANNED, its region DIVIDED and each child WHOLE where a step cuts it and LEAF otherwise. A
segment of length 1 or more is charged: its figures to the charge job in the disposition its state gives, the job
created first if it is unknown, and one CUT record to the log, which a full log loses; an armed mark signals LOG HIGH at
the threshold. A segment of length 0 is not charged. Outside CUTTING both commands are WRONG STATE. -/
def Obligations.SegmentCloses : Prop :=
  (∀ (s : State) (length : Nat), s.cut.state ≠ .cutting →
    (Reaches .cutHalted s → exec (.cutHalted length) s = .next (reply .cutHalted .wrongState .none s))
    ∧ (Reaches .cutDone s → exec (.cutDone length) s = .next (reply .cutDone .wrongState .none s)))
  ∧ ∀ (s : State) (p : Plan) (seg : Segment) (k : Nat) (st : PlanStep) (length : Nat), s.plan.plan = some p →
    s.cut.state = .cutting → s.cut.segment = some seg → s.cut.waiting = false → seg.step = k + 1 →
    p.steps[k]? = some st →
    let whole : Nat := match p.regions.find? fun r => decide (r.number = st.region) with
      | some r => (match st.axis with | .x => r.width | .y => r.length)
      | none => 0
    let lc := min length (whole - st.doneLength)
    let f := figuresNow s seg lc
    let worked : Plan := { p with
      steps := p.steps.set k { st with doneLength := st.doneLength + lc }
      sums := if lc = 0 then p.sums
        else ⟨p.sums.time + f.time, p.sums.water + f.water, p.sums.wear + f.wear, p.sums.volume + f.volume,
          p.sums.length + lc⟩
      segments := if lc = 0 then p.segments else p.segments + 1 }
    let p' : Plan := { worked with
      steps := p.steps.set k { st with status := .done, doneLength := st.doneLength + lc }
      regions := p.regions.map fun r =>
        if r.createdBy = k + 1 then { r with status := if r.cutBy = none then .leaf else .whole }
        else if r.number = st.region then { r with status := .divided } else r }
    let body : ReplyBody :=
      if lc = 0 then .segment 0 0 0 0 0
      else .segment lc f.duration f.volume f.wholeWear (f.time + f.water + f.wear)
    let j := p.header.chargeJob
    let top : Nat := 999999999
    let charge (x : JobEntry) : JobEntry := match x.state with
      | .opened => { x with
          time := min (x.time + f.time) top, water := min (x.water + f.water) top
          wear := min (x.wear + f.wear) top, slab := min (x.slab + 0) top
          volume := min (x.volume + f.volume) top, length := min (x.length + (x.carry + lc) / 10) top
          carry := (x.carry + lc) % 10, pieces := min (x.pieces + 0) 65535, lastChange := s.boot.shopTime }
      | .closed => { x with
          late := min (x.late + (f.time + f.water + f.wear + 0)) top, lastChange := s.boot.shopTime }
    let blank : JobEntry :=
      { job := j, state := .opened, time := 0, water := 0, wear := 0, slab := 0, volume := 0, length := 0, carry := 0
        pieces := 0, late := 0, gap := false, lastChange := s.boot.shopTime }
    let shut (x : JobEntry) : Bool := decide (x.state = .closed)
    let record (d : Disposition) : LogRecord :=
      { kind := .cut, job := j, slabId := p.header.slab, step := k + 1, time := f.time, water := f.water
        wear := f.wear, slab := 0, volume := f.volume, length := lc, shopTime := s.boot.shopTime, disposition := d }
    let charged (t : State) : Prop :=
      (s.cost.log.length < 128 →
        (∀ x, s.jobEntry j = some x →
          t.cost.jobs = s.cost.jobs.map (fun y => if y.job = j then charge y else y)
          ∧ t.cost.log = s.cost.log ++ [record (if x.state = .opened then .totals else .late)])
        ∧ (s.jobEntry j = none → s.cost.jobs.length < 64 →
          t.cost.jobs = s.cost.jobs ++ [charge blank] ∧ t.cost.log = s.cost.log ++ [record .totals])
        ∧ (s.jobEntry j = none → 64 ≤ s.cost.jobs.length → s.cost.jobs.any shut = true →
          t.cost.jobs = s.cost.jobs.eraseP shut ++ [charge blank] ∧ t.cost.log = s.cost.log ++ [record .totals])
        ∧ (s.jobEntry j = none → 64 ≤ s.cost.jobs.length → s.cost.jobs.any shut = false →
          t.cost.jobs = s.cost.jobs ∧ t.cost.log = s.cost.log ++ [record .noEntry]
          ∧ t.boot.faults.jobFull = true ∧ t.boot.lastFault = some ⟨.jobFull, s.boot.shopTime, j⟩)
        ∧ t.cost.armed = (s.cost.armed && decide (s.cost.log.length + 1 < s.cfg.logThreshold))
        ∧ (s.cost.armed = true → s.cfg.logThreshold ≤ s.cost.log.length + 1 → s.port.out.length < 12 →
          PortFrame.signal (.logHigh (s.cost.log.length + 1)) ∈ t.port.out.map (·.frame)))
      ∧ (128 ≤ s.cost.log.length → t.cost.log = s.cost.log ∧ t.cost.armed = s.cost.armed
        ∧ t.boot.faults.logFull = true ∧ t.boot.lastFault = some ⟨.logFull, s.boot.shopTime, j⟩
        ∧ (∀ x, s.jobEntry j = some x →
          t.cost.jobs = s.cost.jobs.map fun y => if y.job = j then { charge y with gap := true } else y))
    (Reaches .cutHalted s → ∃ t, exec (.cutHalted length) s = .next t
      ∧ t.cut.state = .suspended ∧ t.cut.segment = none
      ∧ t.cut.waiting = s.water.stop
      ∧ PortFrame.reply ⟨0xAA, .ok, body⟩ ∈ t.port.out.map (·.frame)
      ∧ t.plan.plan = some worked
      ∧ t.cut.blade = (if lc = 0 then s.cut.blade else { s.cut.blade with
          height := s.cut.blade.height - f.wholeWear, remainder := f.remainder, seating := false })
      ∧ (lc = 0 → t.cost = s.cost) ∧ (lc ≠ 0 → charged t)
      ∧ t.water = s.water ∧ t.line = s.line ∧ t.stock = s.stock)
    ∧ (Reaches .cutDone s →
      (∃ x ∈ p'.steps, x.status = .pending) → ∃ t, exec (.cutDone length) s = .next t
        ∧ t.cut.state = .planned ∧ t.cut.segment = none ∧ t.cut.waiting = false
        ∧ PortFrame.reply ⟨0xAB, .ok, body⟩ ∈ t.port.out.map (·.frame)
        ∧ t.plan.plan = some p'
        ∧ t.cut.blade = (if lc = 0 then s.cut.blade else { s.cut.blade with
            height := s.cut.blade.height - f.wholeWear, remainder := f.remainder, seating := false })
        ∧ (lc = 0 → t.cost = s.cost) ∧ (lc ≠ 0 → charged t)
        ∧ t.water = s.water ∧ t.stock = s.stock
        ∧ (s.boot.listenOnly = false → drawWaiting t.line = true))

/-- R21, R46, R47, R50, R53, R63, R68 to R70, R101, R102, R146, R153, R154, R171: the last step's CUT-DONE completes the
plan: the segment is charged, the outcomes are valued and charged, each piece and a no-piece loss with its SLAB record,
each charge to its job in the disposition of that job's state, and its record to the log while that has room; the
unlocking DRAW, the SPLIT (the parent CUT, then a child for each remnant kept, in ascending order of region number, with
the next ids) and the TALLYs (the charge job's, then one for each piece job) are queued in this order; the cut state is
SPLITTING until every fragment has been applied. That the charge job gets a TALLY when nothing was charged to it too is
the model's reading (log 17). In listen-only the split is written into the own view, the parent CUT and each child
recorded while there is room, and the cut state is EMPTY. -/
def Obligations.PlanCompletes : Prop :=
  ∀ (s : State) (p : Plan) (seg : Segment) (k : Nat) (st : PlanStep) (parent : SlabRecord) (length : Nat),
    Reaches .cutDone s → s.cut.state = .cutting → s.cut.segment = some seg → s.plan.plan = some p →
    s.heldSlab = some parent → seg.step = k + 1 → p.steps[k]? = some st →
    let whole : Nat := match p.regions.find? fun r => decide (r.number = st.region) with
      | some r => (match st.axis with | .x => r.width | .y => r.length)
      | none => 0
    let lc := min length (whole - st.doneLength)
    let f := figuresNow s seg lc
    let worked : Plan := { p with
      steps := p.steps.set k { st with doneLength := st.doneLength + lc }
      sums := if lc = 0 then p.sums
        else ⟨p.sums.time + f.time, p.sums.water + f.water, p.sums.wear + f.wear, p.sums.volume + f.volume,
          p.sums.length + lc⟩
      segments := if lc = 0 then p.segments else p.segments + 1 }
    let q : Plan := { worked with
      steps := p.steps.set k { st with status := .done, doneLength := st.doneLength + lc }
      regions := p.regions.map fun r =>
        if r.createdBy = k + 1 then { r with status := if r.cutBy = none then .leaf else .whole }
        else if r.number = st.region then { r with status := .divided } else r }
    let os := outcomesOf s q
    let w := splitValue parent.value (parent.length * parent.width) os
    let isPieceOf (j : Nat) (o : Outcome) : Bool := match o.kind with | .piece j' _ => decide (j' = j) | _ => false
    let jobOf (o : Outcome) : Option Nat := match o.kind with | .piece j _ => some j | _ => none
    let wanted := q.regions.filter fun r => (resolve q).any fun o => isRemnant o && decide (o.region = r.number)
    let kept := wanted.take (65536 - s.stock.seqNext)
    let child (i : Nat) (r : Region) : SlabRecord :=
      { id := ⟨s.station, s.boot.epoch, s.stock.seqNext + i⟩, parent := some parent.id, cls := parent.cls
        thickness := parent.thickness, length := r.length, width := r.width, edge := .cut
        defects := parent.defects.filterMap fun d =>
          let x0 := max d.x r.x
          let y0 := max d.y r.y
          let x1 := min (d.x + d.length) (r.x + r.length)
          let y1 := min (d.y + d.width) (r.y + r.width)
          if x0 < x1 ∧ y0 < y1 then some ⟨x0 - r.x, y0 - r.y, x1 - x0, y1 - y0⟩ else none
        value := ((w.outcomes.find? fun o => isRemnant o && decide (o.region = r.number)).map (·.amount)).getD 0
        state := .free, holder := none, job := none, priority := none, place := s.station, version := 1
        scored := w.outcomes.any fun o => decide (o.kind = .remnant true) && decide (o.region = r.number) }
    let cutParent : SlabRecord := { parent with
      state := .cut, holder := none, job := none, priority := none, version := versionSucc parent.version }
    let children : List SlabRecord := kept.zipIdx.map fun r => child r.2 r.1
    let records : List SlabRecord := cutParent :: children
    let final (e : StockEntry) : Bool := decide (e.slab.state = .cut) || decide (e.slab.state = .scrapped)
    let place (table : List StockEntry) (r : SlabRecord) : List StockEntry :=
      if table.length < 200 then table ++ [⟨r, none⟩]
      else if table.any final = true then table.eraseP final ++ [⟨r, none⟩]
      else table
    let tally (j : Nat) : Tally :=
      let own (n : Nat) : Nat := if j = q.header.chargeJob then n else 0
      { job := j, time := own q.sums.time, water := own q.sums.water, wear := own q.sums.wear
        slab := ((w.outcomes.filter (isPieceOf j)).map (·.amount)).sum
          + own (if w.outcomes.any isPiece = true then 0 else w.loss)
        volume := own q.sums.volume, length := own q.sums.length
        pieces := (w.outcomes.filter (isPieceOf j)).length }
    let shut (x : JobEntry) : Bool := decide (x.state = .closed)
    let top : Nat := 999999999
    let create (jobs : List JobEntry) (j : Nat) : List JobEntry :=
      let blank : JobEntry :=
        { job := j, state := .opened, time := 0, water := 0, wear := 0, slab := 0, volume := 0, length := 0
          carry := 0, pieces := 0, late := 0, gap := false, lastChange := s.boot.shopTime }
      if jobs.any (fun x => decide (x.job = j)) = true then jobs
      else if jobs.length < 64 then jobs ++ [blank]
      else if jobs.any shut = true then jobs.eraseP shut ++ [blank]
      else jobs
    let post (c : Tally) (x : JobEntry) : JobEntry := match x.state with
      | .opened => { x with
          time := min (x.time + c.time) top, water := min (x.water + c.water) top
          wear := min (x.wear + c.wear) top, slab := min (x.slab + c.slab) top
          volume := min (x.volume + c.volume) top, length := min (x.length + (x.carry + c.length) / 10) top
          carry := (x.carry + c.length) % 10, pieces := min (x.pieces + c.pieces) 65535
          lastChange := s.boot.shopTime }
      | .closed => { x with
          late := min (x.late + (c.time + c.water + c.wear + c.slab)) top, lastChange := s.boot.shopTime }
    let bill (acc : List JobEntry × List LogRecord) (c : Tally × LogKind × Nat) : List JobEntry × List LogRecord :=
      let jobs := create acc.1 c.1.job
      let posted := jobs.map fun x => if x.job = c.1.job then post c.1 x else x
      if acc.2.length < 128 then
        (posted, acc.2 ++ [
          { kind := c.2.1, job := c.1.job, slabId := p.header.slab, step := c.2.2, time := c.1.time
            water := c.1.water, wear := c.1.wear, slab := c.1.slab, volume := c.1.volume, length := c.1.length
            shopTime := s.boot.shopTime
            disposition := match jobs.find? fun x => decide (x.job = c.1.job) with
              | some x => if x.state = .opened then .totals else .late
              | none => .noEntry }])
      else (posted.map fun x => if x.job = c.1.job then { x with gap := true } else x, acc.2)
    let charges : List (Tally × LogKind × Nat) :=
      (if lc = 0 then []
        else [(⟨q.header.chargeJob, f.time, f.water, f.wear, 0, f.volume, lc, 0⟩, .cut, k + 1)])
        ++ w.outcomes.filterMap (fun o => (jobOf o).map fun j => (⟨j, 0, 0, 0, o.amount, 0, 0, 1⟩, .slab, 0))
        ++ (if w.outcomes.any isPiece = true then []
          else [(⟨q.header.chargeJob, 0, 0, 0, w.loss, 0, 0, 0⟩, .slab, 0)])
    (∀ x ∈ q.steps, x.status ≠ .pending) → (q.regions.map (·.number)).Nodup →
    ∃ t, exec (.cutDone length) s = .next t
      ∧ PortFrame.reply ⟨0xAB, .ok,
          if lc = 0 then .segment 0 0 0 0 0
          else .segment lc f.duration f.volume f.wholeWear (f.time + f.water + f.wear)⟩ ∈ t.port.out.map (·.frame)
      ∧ t.water = s.water
      ∧ t.cut.blade = (if lc = 0 then s.cut.blade else { s.cut.blade with
          height := s.cut.blade.height - f.wholeWear, remainder := f.remainder, seating := false })
      ∧ t.stock.seqNext = s.stock.seqNext + kept.length
      ∧ (t.cost.jobs, t.cost.log) = charges.foldl bill (s.cost.jobs, s.cost.log)
      ∧ (s.boot.listenOnly = false →
        t.cut.state = .splitting ∧ t.cut.segment = none ∧ t.cut.held = s.cut.held
        ∧ t.plan.plan = some { q with split := some w } ∧ t.stock.table = s.stock.table
        ∧ ∃ parts : List (List SlabRecord), parts.flatten = records
          ∧ (∀ rs ∈ parts, rs ≠ [] ∧ (rs.length = 1 ∨ 4 + (rs.map slabSize).sum ≤ 128))
          ∧ t.cut.splitLeft = parts.length
          ∧ (s.line.waiters = [] → drawWaiting s.line = false →
            (allEntries t.line).map (·.notice) = s.line.queue.map (·.notice)
              ++ .draw s.water.ownRequest false 0
              :: (parts.zipIdx.map fun rs => .split (if rs.2 < 8 then parent.version else 0) rs.1)
              ++ ((q.header.chargeJob :: w.outcomes.filterMap jobOf).eraseDups.map fun j => .tally (tally j))))
      ∧ (s.boot.listenOnly = true → t.cut.state = .empty ∧ t.cut.held = none ∧ t.plan.plan = none
        ∧ t.line = s.line
        ∧ (parent.state = .loaded → parent.holder = some s.station → (∀ r ∈ children, s.slab r.id = none) →
          t.stock.table = children.foldl place
            (s.stock.table.map fun x => if x.slab.id = parent.id then ⟨cutParent, none⟩ else x)))

/-- R73: BLADE-CHANGE records the new blade with remainder 0 and seating pending, works the own request again and
keeps the cut state; it is WRONG STATE in CUTTING, SUSPENDED and SPLITTING, KERF MISMATCH in PLANNED on another
kerf. -/
def Obligations.BladeChanged : Prop :=
  ∀ (type serial height : Nat) (s : State), Reaches .bladeChange s →
    bladeChangeOk s.cfg type serial height = true →
    (s.cut.state = .cutting ∨ s.cut.state = .suspended ∨ s.cut.state = .splitting →
      exec (.bladeChange type serial height) s = .next (reply .bladeChange .wrongState .none s))
    ∧ (∀ p, s.cut.state = .planned → s.plan.plan = some p →
      (s.cfg.blades.getD type BladeType.blank).kerf ≠ p.kerf →
      exec (.bladeChange type serial height) s = .next (reply .bladeChange .kerfMismatch .none s))
    ∧ (s.cut.state = .empty ∨ s.cut.state = .claimed ∨ s.cut.state = .loaded ∨ s.cut.state = .staging
        ∨ (s.cut.state = .planned
          ∧ ∀ p, s.plan.plan = some p → (s.cfg.blades.getD type BladeType.blank).kerf = p.kerf) →
      ∃ t, exec (.bladeChange type serial height) s = .next t
        ∧ t.cut.blade = { type := type, serial := serial, height := height, remainder := 0, seating := true }
        ∧ t.water.ownRequest = (if s.cut.parked = true then 0
          else min (s.cfg.blades.getD type BladeType.blank).q s.cfg.drawCeiling)
        ∧ t.water.draws = s.water.draws
        ∧ PortFrame.reply ⟨0xAC, .ok, .none⟩ ∈ t.port.out.map (·.frame)
        ∧ t.cut.state = s.cut.state ∧ t.plan = s.plan ∧ t.stock = s.stock ∧ t.cost = s.cost
        ∧ t.port.outstanding = none)

/-- R76, R77, R107, R182: PARK and UNPARK change the flag, stop or start priming, work the own request again and
are kept until their DRAW is applied; with nothing to do, in another state or without the line they are answered
at once and change nothing. That an own DRAW already being sent absorbs the REQUEST too is the model's reading
(log 14). -/
def Obligations.Parking : Prop :=
  ∀ s : State,
    let request : Nat := min s.bladeType.q s.cfg.drawCeiling
    (Reaches .park s →
      (s.cut.state = .cutting ∨ s.cut.state = .suspended ∨ s.cut.state = .splitting →
        exec .park s = .next (reply .park .wrongState .none s))
      ∧ (s.cut.state ≠ .cutting → s.cut.state ≠ .suspended → s.cut.state ≠ .splitting →
        (s.cut.parked = true → exec .park s = .next (reply .park .ok .none s))
        ∧ (s.cut.parked = false → s.boot.listenOnly = true →
          exec .park s = .next (reply .park .silent .none s))
        ∧ (s.cut.parked = false → QueueOpen s → drawWaiting s.line = false →
          exec .park s = .next { s with
            port := { s.port with outstanding := some .park }
            cut := { s.cut with parked := true, priming := none }
            water := { s.water with ownRequest := 0 }
            line := withEntry { entry (.draw 0 false 0) (some .park) with purpose := some .request } s.line })
        ∧ (s.cut.parked = false → s.boot.listenOnly = false → drawWaiting s.line = true →
          exec .park s = .next { s with
            port := { s.port with outstanding := some .park }
            cut := { s.cut with parked := true, priming := none }
            water := { s.water with ownRequest := 0 }
            line := absorbDraw .request (some .park) s.line })
        ∧ (s.cut.parked = false → s.boot.listenOnly = false → drawWaiting s.line = false →
          12 ≤ s.line.queue.length → exec .park s = .next (reply .park .full .none s))))
    ∧ (Reaches .unpark s →
      (s.cut.parked = false → exec .unpark s = .next (reply .unpark .wrongState .none s))
      ∧ (s.cut.parked = true → s.boot.listenOnly = true →
        exec .unpark s = .next (reply .unpark .silent .none s))
      ∧ (s.cut.parked = true → QueueOpen s → drawWaiting s.line = false →
        exec .unpark s = .next { s with
          port := { s.port with outstanding := some .unpark }
          cut := { s.cut with parked := false, priming := some (s.cfg.primeTime * 10) }
          water := { s.water with ownRequest := request }
          line := withEntry { entry (.draw request false 0) (some .unpark) with
            purpose := some .request } s.line })
      ∧ (s.cut.parked = true → s.boot.listenOnly = false → drawWaiting s.line = true →
        exec .unpark s = .next { s with
          port := { s.port with outstanding := some .unpark }
          cut := { s.cut with parked := false, priming := some (s.cfg.primeTime * 10) }
          water := { s.water with ownRequest := request }
          line := absorbDraw .request (some .unpark) s.line })
      ∧ (s.cut.parked = true → s.boot.listenOnly = false → drawWaiting s.line = false →
        12 ≤ s.line.queue.length → exec .unpark s = .next (reply .unpark .full .none s)))

/-! ### Plant and console commands -/

/-- R131 to R135: PLANT-REPORT is stored with its level clamped and the shop time, restarts the report timer,
clears the stale state and works capacity, stop state and fresh fraction; it changes no other unit but the
queue. -/
def Obligations.PlantReportWorked : Prop :=
  ∀ (level clarifier makeup : Nat) (s : State), Reaches .plantReport s → clarifier ≤ 2000 → makeup ≤ 2000 →
    s.cfg.lowMark ≠ 0 →
    let lv := min level 1000
    let base := clarifier + makeup
    ∃ t, exec (.plantReport level clarifier makeup) s = .next t
      ∧ t.plant.report = some ⟨lv, clarifier, makeup, s.boot.shopTime⟩
      ∧ t.plant.reportTimer = some 300 ∧ t.plant.stale = false
      ∧ t.plant.capacity = min s.cfg.maxCapacity
        (if s.cfg.highMark ≤ lv then base + s.cfg.allowance
        else if s.cfg.lowMark ≤ lv then base else base * lv / s.cfg.lowMark)
      ∧ (s.plant.stop = false → (t.plant.stop = true ↔ lv ≤ s.cfg.stopMark))
      ∧ (s.plant.stop = true → (t.plant.stop = false ↔ s.cfg.resumeMark ≤ lv))
      ∧ (base = 0 → t.plant.fresh = 0)
      ∧ (base ≠ 0 → t.plant.fresh = (200 * makeup + base) / (2 * base))
      ∧ t.plant.announced = s.plant.announced
      ∧ t.plant.announceTimer = (if s.plant.announceTimer = none then some 100 else s.plant.announceTimer)
      ∧ (∃ announced : Bool, PortFrame.reply ⟨0xC0, .ok,
          .plantReport t.plant.capacity t.plant.fresh t.plant.stop announced⟩ ∈ t.port.out.map (·.frame))
      ∧ (s.plant.announced = none → s.boot.listenOnly = false → (allEntries t.line).any isPlant = true)
      ∧ t.boot = s.boot ∧ t.water = s.water ∧ t.stock = s.stock ∧ t.cost = s.cost ∧ t.port.outstanding = none
      ∧ t.cut = s.cut ∧ t.plan = s.plan

/-- R136 to R138, R140: the report timer's expiry sets the stale state, keeps the figures, raises PLANT_STALE, starts
the announce timer unless it runs, and queues a PLANT of capacity 0 with the stale flag set, or the queued one takes
these figures at its revalidation; the announce timer's expiry queues a PLANT with the present figures unless one
waits, and restarts. That a PLANT being sent counts as queued (log 25) is the model's reading, and that an expiry of a
timer that does not run changes nothing (log 6) its choice. -/
def Obligations.PlantTimers : Prop :=
  ∀ s : State,
    (s.inService = true → ∀ n, s.plant.reportTimer = some n → ∃ t, exec .reportTimerExpiry s = .next t
      ∧ t.plant = { s.plant with
        stale := true, reportTimer := none
        announceTimer := if s.plant.announceTimer = none then some 100 else s.plant.announceTimer }
      ∧ plantFigures t.plant = .plant 0 s.plant.fresh s.plant.stop true
      ∧ t.boot.faults.plantStale = true
      ∧ t.boot.lastFault = some ⟨.plantStale, s.boot.shopTime, s.station⟩
      ∧ (s.boot.listenOnly = true → t.line = s.line)
      ∧ (s.boot.listenOnly = false → (∀ a, s.plant.announced = some a → a.stale = false) →
        ((allEntries s.line).any isPlant = true → t.line = s.line)
        ∧ ((allEntries s.line).any isPlant = false →
          ∃ e ∈ allEntries t.line, e.notice = .plant 0 s.plant.fresh s.plant.stop true)
        ∧ (QueueOpen s → (allEntries s.line).any isPlant = false →
          t.line = withEntry (entry (.plant 0 s.plant.fresh s.plant.stop true) none) s.line))
      ∧ t.water = s.water ∧ t.stock = s.stock ∧ t.cost = s.cost ∧ t.cut = s.cut ∧ t.plan = s.plan)
    ∧ (s.inService = true → ∀ n, s.plant.announceTimer = some n → ∃ t, exec .announceTimerExpiry s = .next t
      ∧ t.plant = { s.plant with announceTimer := some 100 }
      ∧ (s.boot.listenOnly = true ∨ (allEntries s.line).any isPlant = true → t.line = s.line)
      ∧ (s.boot.listenOnly = false → (allEntries s.line).any isPlant = false →
        let figures : Notice :=
          .plant (if s.plant.stale = true then 0 else s.plant.capacity) s.plant.fresh s.plant.stop s.plant.stale
        (∃ e ∈ allEntries t.line, e.notice = figures)
        ∧ (QueueOpen s → t.line = withEntry (entry figures none) s.line))
      ∧ t.water = s.water ∧ t.port = s.port ∧ t.boot = s.boot ∧ t.stock = s.stock ∧ t.cost = s.cost
      ∧ t.cut = s.cut ∧ t.plan = s.plan)
    ∧ (s.inService = false ∨ s.plant.reportTimer = none → exec .reportTimerExpiry s = .next s)
    ∧ (s.inService = false ∨ s.plant.announceTimer = none → exec .announceTimerExpiry s = .next s)

/-- R10, R29, R182: YARD-IN: room, then ids, then the line; the id issued is the station's number, its epoch and
the counter's value, which advances by one. That a YARD-IN refused SILENT or FULL issues no id is the model's reading
(log 23). -/
def Obligations.YardInIssued : Prop :=
  ∀ (cls thickness length width value : Nat) (defects : List Defect) (s : State), Reaches .yardIn s →
    yardInOk cls thickness length width defects value = true →
    (200 ≤ s.stock.table.length → (∀ e ∈ s.stock.table, e.slab.state ≠ .cut ∧ e.slab.state ≠ .scrapped) →
      exec (.yardIn cls thickness length width defects value) s = .next (reply .yardIn .full .none s))
    ∧ (s.stock.table.length < 200 ∨ (∃ e ∈ s.stock.table, e.slab.state = .cut ∨ e.slab.state = .scrapped) →
      (65535 < s.stock.seqNext →
        exec (.yardIn cls thickness length width defects value) s = .next (reply .yardIn .idExhausted .none s))
      ∧ (s.stock.seqNext ≤ 65535 → s.boot.listenOnly = true →
        exec (.yardIn cls thickness length width defects value) s = .next (reply .yardIn .silent .none s))
      ∧ (s.stock.seqNext ≤ 65535 → s.boot.listenOnly = false → 12 ≤ s.line.queue.length →
        exec (.yardIn cls thickness length width defects value) s = .next (reply .yardIn .full .none s))
      ∧ (s.stock.seqNext ≤ 65535 → QueueOpen s →
        exec (.yardIn cls thickness length width defects value) s = .next
          (Queued .yardIn (.yardIn
            { id := ⟨s.station, s.boot.epoch, s.stock.seqNext⟩, parent := none, cls := cls
              thickness := thickness, length := length, width := width, edge := .raw, defects := defects
              value := value, state := .free, holder := none, job := none, priority := none, place := 0
              version := 1, scored := false })
            { s with stock := { s.stock with seqNext := s.stock.seqNext + 1 } })))

/-- R24, R25, R124, R149, R150, R182: the other console commands: their checks, and the notice that joins the
queue, or SILENT or FULL. -/
def Obligations.ConsoleCommands : Prop :=
  ∀ s : State,
    (∀ id : SlabId, slabIdOk id = true → Reaches .scrap s →
      exec (.scrap id) s = .next (match s.slab id with
        | none => reply .scrap .unknown .none s
        | some r =>
          if r.state = .free then
            Placed .scrap
              (.scrap r.version { r with state := .scrapped, version := versionSucc r.version }) s
          else reply .scrap .wrongState .none s))
    ∧ (∀ id : SlabId, slabIdOk id = true → Reaches .forceFree s →
      exec (.forceFree id) s = .next (match s.slab id with
        | none => reply .forceFree .unknown .none s
        | some r =>
          if r.state = .claimed then
            Placed .forceFree (.free .forced r.version { r with
              state := .free, holder := none, job := none, priority := none
              version := versionSucc r.version }) s
          else reply .forceFree .wrongState .none s))
    ∧ (∀ job : Nat, jobOk job = true → Reaches .jobOpen s →
      exec (.jobOpen job) s = .next
        (if s.jobEntry job = none ∧ jobRoom s.cost.jobs = 0 then reply .jobOpen .full .none s
        else Placed .jobOpen (.jobOpen job) s))
    ∧ (∀ job : Nat, jobOk job = true → Reaches .jobClose s →
      exec (.jobClose job) s = .next
        (if s.jobEntry job = none then reply .jobClose .unknown .none s
        else Placed .jobClose (.jobClose job) s))
    ∧ (Reaches .waterOverride s →
      exec .waterOverride s = .next
        (if s.water.stop = true then Placed .waterOverride .waterOverride s
        else reply .waterOverride .wrongState .none s))

/-! ### Arithmetic -/

/-- R82 to R85: the effective feed of a segment; R87 to R91: its figures when it closes. -/
def Obligations.SegmentArithmetic : Prop :=
  ∀ (cfg : ConfigRecord) (b : BladeType) (seg : Segment) (remainder length thickness cls : Nat),
    1 ≤ seg.feed → 1 ≤ cls → cls ≤ 4 → seg.fresh ≤ 100 →
    let f := segmentFigures cfg b seg remainder length thickness cls
    let rate := if cls = 1 then b.wear1 else if cls = 2 then b.wear2 else if cls = 3 then b.wear3 else b.wear4
    let price := (cfg.recycledPrice * (100 - seg.fresh) + cfg.freshPrice * seg.fresh) / 100
    f.length = length
    ∧ (length * 60 ≤ f.duration * seg.feed ∧ ∀ t, length * 60 ≤ t * seg.feed → f.duration ≤ t)
    ∧ (min seg.grant b.q * f.duration ≤ f.volume * 200
      ∧ ∀ v, min seg.grant b.q * f.duration ≤ v * 200 → f.volume ≤ v)
    ∧ (f.wholeWear * 10000000 + f.remainder = remainder + length * thickness * rate ∧ f.remainder < 10000000)
    ∧ (2 * (cfg.machineRate * f.duration) < 2 * (f.time * 36000) + 36000
      ∧ 2 * (f.time * 36000) ≤ 2 * (cfg.machineRate * f.duration) + 36000)
    ∧ (2 * (f.volume * price) < 2 * (f.water * 10000) + 10000
      ∧ 2 * (f.water * 10000) ≤ 2 * (f.volume * price) + 10000)
    ∧ f.wear = f.wholeWear * b.price
    ∧ segmentTotal f = f.time + f.water + f.wear
    ∧ (1 ≤ thickness → 1 ≤ b.q → ∀ (floor grant : Nat) (seating : Bool), floor ≤ b.f0 →
      let p : Nat := if cls = 1 then 100 else if cls = 2 then 85 else if cls = 3 then 70 else 55
      let nominal := max floor (min (b.f0 * 20 * p / (thickness * 100)) b.f0)
      let seated := if seating = true then max floor (nominal / 2) else nominal
      let feed := effectiveFeed b floor thickness cls grant seating
      feed = max floor (seated * min grant b.q / b.q) ∧ floor ≤ feed ∧ feed ≤ b.f0
        ∧ (b.q ≤ grant → feed = seated))

/-- R96 to R100, R103: at every split the remnants and pieces take their shares by area, and piece charges,
no-piece loss and remnant values sum to the parent's value. -/
def Obligations.SplitConserves : Prop :=
  ∀ (value full : Nat) (os : List Outcome), 0 < full → (∀ o ∈ os, 0 < o.area) →
    ((os.filter fun o => !isWaste o).map (·.area)).sum ≤ full →
    let w := splitValue value full os
    let pieces := os.filter isPiece
    let areas := (pieces.map (·.area)).sum
    let loss := value - ((os.filter fun o => !isWaste o).map fun o => value * o.area / full).sum
    w.loss = loss
    ∧ ((os.filter fun o => !isWaste o).map fun o => value * o.area / full).sum ≤ value
    ∧ w.outcomes.map (fun o => (o.kind, o.region, o.leaf, o.area))
        = os.map (fun o => (o.kind, o.region, o.leaf, o.area))
    ∧ (∀ o ∈ w.outcomes, isRemnant o = true → o.amount = value * o.area / full)
    ∧ (∀ o ∈ w.outcomes, isWaste o = true → o.amount = 0)
    ∧ (pieces ≠ [] →
      (w.outcomes.map (·.amount)).sum = value
      ∧ ∃ (pre post : List Outcome) (big : Outcome), w.outcomes = pre ++ big :: post ∧ isPiece big = true
        ∧ (∀ o ∈ pre, isPiece o = true → o.area < big.area)
        ∧ (∀ o ∈ post, isPiece o = true → o.area ≤ big.area)
        ∧ (∀ o ∈ pre ++ post, isPiece o = true →
          o.amount = value * o.area / full + loss * o.area / areas)
        ∧ big.amount = value * big.area / full + loss * big.area / areas
          + (loss - (pieces.map fun o => loss * o.area / areas).sum))
    ∧ (pieces = [] → noPieces w = true ∧ (w.outcomes.map (·.amount)).sum + w.loss = value)

/-- R111: the fit rule: a locked grant stays as it is, and an unlocked one is reduced by the lesser of its grant and
the excess still to take once every unlocked entry after it has given. -/
def Obligations.FitRule : Prop :=
  ∀ (capacity : Nat) (ds : List DrawEntry),
    let room := capacity - lockedSum ds
    let excess := unlockedSum ds - room
    (∀ (pre post : List DrawEntry) (d : DrawEntry), ds = pre ++ d :: post →
      (fitTable capacity ds)[pre.length]? = some { d with
        granted := if d.locked = true then d.granted
          else d.granted - min d.granted (excess - unlockedSum post) })
    ∧ (fitTable capacity ds).length = ds.length
    ∧ unlockedSum (fitTable capacity ds) = min (unlockedSum ds) room
    ∧ lockedSum (fitTable capacity ds) = lockedSum ds

/-! ### The shop line: sending -/

/-- R9, R14, R28, R167: what the stock unit does with its notice at the head as the quiet wait ends: sends it unchanged,
sends it rebuilt from the present entry, or withdraws it and answers the command with the code. That a CLAIM whose
precondition fails while its job is CLOSED too is answered LOST is the model's choice (log 38). R14: an expiry of the
claim window that a LOAD or FREE held takes effect as that notice is withdrawn, behind the answer by the model's reading
(log 21): while the slab is still CLAIMED here LAPSED is signalled and a LAPSE queued, which, the queue being empty, is
the next entry and goes at once if the line is still quiet (the model's choice, log 40); else nothing follows. After 48
bit times of quiet no frame met on joining is in progress any more (R159). -/
def Obligations.StockRevalidation : Prop :=
  ∀ (s : State) (e : QEntry) (rest : List QEntry) (quiet : Bool), s.joined = true →
    s.line.queue = e :: rest → s.line.access = .waitQuiet →
    let sent (n : Notice) : Prop := exec (.quietWaitElapsed quiet) s = .next { s with line := { s.line with
      queue := { e with notice := n, attempts := e.attempts + 1 } :: rest
      access := .sending, midFrame := false, driving := encodeFrame s.station e.index e.count n } }
    let gone (code : Status) : Prop := rest = [] → s.line.waiters = [] → s.stock.heldExpiry = false →
      exec (.quietWaitElapsed quiet) s = .next (answer e.cmd code .none
        { s with line := { s.line with queue := [], access := .idle, midFrame := false, driving := [] } })
    let onlyUnmoved (id : SlabId) (pre : Nat) (code : Status) : Prop :=
      ((∃ v, s.slab id = some v ∧ v.version = pre) → sent e.notice)
      ∧ ((∀ v, s.slab id = some v → v.version ≠ pre) → gone code)
    (∀ pre r, e.notice = .claim pre r →
      let wins (v : SlabRecord) : Prop := v.state = .free
        ∨ (v.state = .claimed ∧ v.holder ≠ some s.station ∧ v.priority.getD 0 < r.priority.getD 0)
      let closed : Prop := ∃ j, s.jobEntry (r.job.getD 0) = some j ∧ j.state = .closed
      (∀ v, s.slab r.id = some v → wins v → ¬ closed →
        (v.version = pre → sent e.notice)
        ∧ (v.version ≠ pre → sent (.claim v.version { v with
          state := .claimed, holder := some s.station, job := some (r.job.getD 0)
          priority := some (r.priority.getD 0), version := versionSucc v.version })))
      ∧ ((∀ v, s.slab r.id = some v → ¬ wins v) → gone .lost)
      ∧ (∀ v, s.slab r.id = some v → wins v → closed → gone .stale))
    ∧ (∀ pre r, e.notice = .lapse pre r → onlyUnmoved r.id pre .ok)
    ∧ (∀ pre r, e.notice = .free .released pre r ∨ e.notice = .free .unloaded pre r ∨ e.notice = .load pre r →
      onlyUnmoved r.id pre .lost)
    ∧ (∀ pre r, e.notice = .free .orphan pre r → onlyUnmoved r.id pre .ok)
    ∧ (∀ pre r, e.notice = .free .forced pre r →
      (∀ v, s.slab r.id = some v → v.version = pre → sent e.notice)
      ∧ (∀ v, s.slab r.id = some v → v.version ≠ pre → v.state = .claimed →
        sent (.free .forced v.version { v with
          state := .free, holder := none, job := none, priority := none, version := versionSucc v.version }))
      ∧ ((∀ v, s.slab r.id = some v → v.version ≠ pre ∧ v.state ≠ .claimed) → gone .stale))
    ∧ (∀ pre r, e.notice = .scrap pre r →
      (∀ v, s.slab r.id = some v → v.version = pre → sent e.notice)
      ∧ (∀ v, s.slab r.id = some v → v.version ≠ pre → v.state = .free →
        sent (.scrap v.version { v with state := .scrapped, version := versionSucc v.version }))
      ∧ ((∀ v, s.slab r.id = some v → v.version ≠ pre ∧ v.state ≠ .free) → gone .stale))
    ∧ ((∃ r, e.notice = .yardIn r) ∨ (∃ pre rs, e.notice = .split pre rs) ∨ e.notice = .stockAsk
      ∨ e.notice = .restart → sent e.notice)
    ∧ (∀ rs, e.notice = .stockState rs →
      (rs.filterMap (fun r => s.slab r.id) ≠ [] → sent (.stockState (rs.filterMap fun r => s.slab r.id)))
      ∧ (rs.filterMap (fun r => s.slab r.id) = [] → gone .ok))
    ∧ (∀ pre r v code, ((e.notice = .free .released pre r ∨ e.notice = .free .unloaded pre r ∨ e.notice = .load pre r)
          ∧ code = Status.lost) ∨ (e.notice = .free .orphan pre r ∧ code = .ok) → s.slab r.id = some v →
      v.version ≠ pre → rest = [] → s.line.waiters = [] → s.stock.heldExpiry = true → s.cut.held = some r.id →
      let u : State := answer e.cmd code .none { s with stock := { s.stock with heldExpiry := false } }
      let last : QEntry := entry (.lapse v.version { v with
        state := .free, holder := none, job := none, priority := none, version := versionSucc v.version }) none
      (¬ (v.state = .claimed ∧ v.holder = some s.station) → exec (.quietWaitElapsed quiet) s = .next { u with
        line := { s.line with queue := [], access := .idle, midFrame := false, driving := [] } })
      ∧ (v.state = .claimed → v.holder = some s.station → s.boot.listenOnly = false →
        exec (.quietWaitElapsed quiet) s = .next { emit (.lapsed r.id) u with
          line := if quiet = true
            then { s.line with
              queue := [{ last with attempts := 1 }], access := .sending, midFrame := false
              driving := encodeFrame s.station last.index last.count last.notice }
            else { s.line with queue := [last], access := .waitQuiet, midFrame := false, driving := [] } }))

/-- R58, R108, R115, R124, R137, R167: the other units' notices at the head: a locking DRAW is sent with the present
request and grant or withdrawn with its WAIT reason and the waiting mark set; any other own DRAW carries the lock
exactly in CUTTING and SUSPENDED and is withdrawn when it would change nothing; a PLANT carries the present figures; a
WATER-OVERRIDE is STALE once the stop is clear; TALLY, JOB-OPEN and JOB-CLOSE go as they are. After a withdrawal the
next entry is revalidated at once, and sent if the line is still quiet. That a locking DRAW whose plan is gone is
withdrawn with LOST is the model's choice (log 13). -/
def Obligations.WaterRevalidation : Prop :=
  ∀ (s : State) (e : QEntry) (rest : List QEntry) (quiet : Bool), s.joined = true →
    s.line.queue = e :: rest → s.line.access = .waitQuiet →
    let sent (n : Notice) : Prop := exec (.quietWaitElapsed quiet) s = .next { s with line := { s.line with
      queue := { e with notice := n, attempts := e.attempts + 1 } :: rest
      access := .sending, midFrame := false, driving := encodeFrame s.station e.index e.count n } }
    let left : State := { s with line := { s.line with
      queue := [], access := .idle, midFrame := false, driving := [] } }
    let gone (code : Status) : Prop := rest = [] → s.line.waiters = [] → s.stock.heldExpiry = false →
      exec (.quietWaitElapsed quiet) s = .next (answer e.cmd code .none left)
    let goneWaiting (code : Status) : Prop := rest = [] → s.line.waiters = [] → s.stock.heldExpiry = false →
      exec (.quietWaitElapsed quiet) s = .next
        (let u := answer e.cmd code .none left
        { u with cut := { s.cut with waiting := true } })
    let request : Nat := s.water.ownRequest
    let others : Nat := othersSum s.water.draws s.station
    (∀ q l g, e.notice = .draw q l g → e.purpose = some .lock →
      (s.cut.state = .planned → s.water.stop = false → minWetting s.bladeType ≤ s.ownGrant →
        sent (.draw request true s.ownGrant))
      ∧ (s.cut.state ≠ .planned → gone .lost)
      ∧ (s.cut.state = .planned → s.water.stop = true → goneWaiting .waitStop)
      ∧ (s.cut.state = .planned → s.water.stop = false → s.ownGrant < minWetting s.bladeType →
        goneWaiting .waitWater))
    ∧ (∀ q l g, e.notice = .draw q l g → e.purpose ≠ some .lock →
      (s.cut.state = .cutting ∨ s.cut.state = .suspended → sent (.draw request true s.ownGrant))
      ∧ (s.cut.state ≠ .cutting → s.cut.state ≠ .suspended →
        let idle : Prop := (e.purpose = some .request ∨ e.purpose = some .prompt) ∧ e.absorbed = false
          ∧ s.ownDraw.locked = false ∧ s.ownDraw.requested = request
          ∧ min request (s.water.capacity - others) = s.ownGrant
        (idle → gone .ok) ∧ (¬ idle → sent (.draw request false 0))))
    ∧ (∀ c f st sl, e.notice = .plant c f st sl →
      sent (.plant (if s.plant.stale = true then 0 else s.plant.capacity) s.plant.fresh s.plant.stop
        s.plant.stale))
    ∧ (e.notice = .waterOverride →
      (s.water.stop = true → sent e.notice) ∧ (s.water.stop = false → gone .stale))
    ∧ ((∃ t, e.notice = .tally t) ∨ (∃ j, e.notice = .jobOpen j) ∨ (∃ j, e.notice = .jobClose j) →
      sent e.notice)
    ∧ (∀ (e2 : QEntry) (rest2 : List QEntry), e.notice = .waterOverride → s.water.stop = false →
      rest = e2 :: rest2 → e2.notice = .restart → s.line.waiters = [] → s.stock.heldExpiry = false →
      exec (.quietWaitElapsed quiet) s = .next (answer e.cmd .stale .none { s with line :=
        if quiet = true then { s.line with
          queue := { e2 with attempts := e2.attempts + 1 } :: rest2
          access := .sending, midFrame := false, driving := encodeFrame s.station e2.index e2.count .restart }
        else { s.line with queue := rest, access := .waitQuiet, midFrame := false, driving := [] } }))

/-- R12, R26, R46, R58, R62, R109, R110, R143, R148, R165, R168: CLEAN-ECHO: the head leaves the queue, a waiter takes
the freed entry, frames sent rises, and the station applies its own notice: a CLAIM wins the slab and creates a job not
known yet, into a free entry or for the oldest CLOSED one, or raises JOB_FULL; a locking DRAW locks the grant, grants
the lowest PENDING step, which is IN PROGRESS then and its region IN CUT, and opens its first segment, and the CUT-ASK
is given the cut; another DRAW sets the own entry, an own TALLY, RESTART or STOCK-ASK changes nothing more. -/
def Obligations.CleanEcho : Prop :=
  ∀ (s : State) (e : QEntry) (rest : List QEntry), s.line.access = .sending → s.line.queue = e :: rest →
    let sent : Nat := min (s.line.framesSent + 1) 4294967295
    (∃ t, exec .cleanEcho s = .next t ∧ t.line.framesSent = sent ∧ t.line.driving = [])
    ∧ (∀ (w : Waiter) (ws : List Waiter) (n : QEntry) (more : List QEntry), s.line.waiters = w :: ws →
      w.notices = n :: more → (∃ t, e.notice = .tally t) →
      exec .cleanEcho s = .next { s with line := { s.line with
        queue := rest ++ [n], waiters := if more = [] then ws else ws ++ [{ w with notices := more }]
        access := .waitQuiet, driving := [], framesSent := sent } })
    ∧ (s.line.waiters = [] →
      let u : State := { s with line := { s.line with
        queue := rest, access := if rest = [] then .idle else .waitQuiet, driving := [], framesSent := sent } }
      ((∃ t, e.notice = .tally t) ∨ e.notice = .restart ∨ e.notice = .stockAsk →
        exec .cleanEcho s = .next u)
      ∧ (∀ pre r v, e.notice = .claim pre r → s.slab r.id = some v → v.version = pre →
        (v.state = .free ∨ (v.state = .claimed ∧ v.holder ≠ some s.station
          ∧ v.priority.getD 0 < r.priority.getD 0)) →
        r.state = .claimed →
        let j := r.job.getD 0
        let answered : State := answer e.cmd .ok .none s
        let blank : JobEntry :=
          { job := j, state := .opened, time := 0, water := 0, wear := 0, slab := 0, volume := 0, length := 0
            carry := 0, pieces := 0, late := 0, gap := false, lastChange := s.boot.shopTime }
        let shut (x : JobEntry) : Bool := decide (x.state = .closed)
        ∃ t, exec .cleanEcho s = .next t
          ∧ t.cut.state = .claimed ∧ t.cut.held = some r.id
          ∧ t.stock.table = s.stock.table.map (fun x => if x.slab.id = r.id then
            ⟨r, some ⟨s.cfg.claimWindow * 10 + 600, r.version⟩⟩ else x)
          ∧ t.stock.window = some (s.cfg.claimWindow * 10) ∧ t.stock.heldExpiry = false
          ∧ t.line = u.line ∧ t.water = s.water
          ∧ (s.jobEntry j ≠ none → t.cost = s.cost ∧ t.port = answered.port ∧ t.boot = s.boot)
          ∧ (s.jobEntry j = none →
            (s.cost.jobs.length < 64 → t.cost = { s.cost with jobs := s.cost.jobs ++ [blank] }
              ∧ t.port = answered.port ∧ t.boot = s.boot)
            ∧ (64 ≤ s.cost.jobs.length → s.cost.jobs.any shut = true →
              t.cost = { s.cost with jobs := s.cost.jobs.eraseP shut ++ [blank] }
              ∧ t.port = answered.port ∧ t.boot = s.boot)
            ∧ (64 ≤ s.cost.jobs.length → s.cost.jobs.any shut = false → t.cost = s.cost
              ∧ t.port = (raise .jobFull j answered).port ∧ t.boot = (raise .jobFull j answered).boot)))
      ∧ (∀ q g p k st, e.notice = .draw q true g → e.purpose = some .lock → s.cut.state = .planned →
        s.plan.plan = some p → p.steps[k]? = some st → st.status = .pending →
        (∀ i x, i < k → p.steps[i]? = some x → x.status ≠ .pending) → ∃ t, exec .cleanEcho s = .next t
          ∧ t.cut.state = .cutting ∧ t.cut.waiting = false
          ∧ t.plan.plan = some { p with
            steps := p.steps.set k { st with status := .inProgress }
            regions := p.regions.map fun r => if r.number = st.region then { r with status := .inCut } else r }
          ∧ t.ownDraw = ⟨s.station, q, min g q, true, none⟩
          ∧ t.cut.segment = some
            { step := k + 1, doneBefore := st.doneLength, grant := min g q, fresh := s.water.fresh
              seating := s.cut.blade.seating
              feed := effectiveFeed s.bladeType s.cfg.feedFloor s.stone.1 s.stone.2 (min g q)
                s.cut.blade.seating }
          ∧ (∀ c r, e.cmd = some c → findRegion p.regions st.region = some r →
            PortFrame.reply ⟨replyType (cmdCode c), .ok, .cut (cutReply st r (k + 1) st.doneLength (min g q)
              (effectiveFeed s.bladeType s.cfg.feedFloor s.stone.1 s.stone.2 (min g q) s.cut.blade.seating))⟩
              ∈ t.port.out.map (·.frame))
          ∧ t.water.refresh = some 100 ∧ t.line.queue = rest ∧ t.stock = s.stock ∧ t.cost = s.cost)
      ∧ (∀ q l g, e.notice = .draw q l g → e.purpose ≠ some .lock → ∃ t, exec .cleanEcho s = .next t
          ∧ t.water.draws = fitTable s.water.capacity (putDraw
            ⟨s.station, q, if l = true then min g q
              else min q (s.water.capacity - othersSum s.water.draws s.station), l, none⟩ s.water.draws)
          ∧ t.water.refresh = some 100 ∧ t.line.queue = rest ∧ t.stock = s.stock ∧ t.cost = s.cost
          ∧ t.plan = s.plan
          ∧ (∀ c, e.cmd = some c → PortFrame.reply ⟨replyType (cmdCode c), .ok, .none⟩
            ∈ t.port.out.map (·.frame))))

/-- R5, R10, R15 to R18, R20 to R22, R24, R25, R27, R28, R124, R136, R137, R143, R149 to R151, R168: CLEAN-ECHO of the
other own notices: the station applies the notice by the rules of every receiver, with the effects of a sender, and
answers its command. The children of a SPLIT fragment are recorded one after another, each into a free slot, or for the
oldest CUT or SCRAPPED entry, or lost with STOCK_FULL. How the completion of an answer's fragment is kept is the model's
reading (log 10). -/
def Obligations.OwnNoticesApplied : Prop :=
  ∀ (s : State) (e : QEntry) (rest : List QEntry), s.line.access = .sending → s.line.queue = e :: rest →
    s.line.waiters = [] →
    let u : State := { s with line := { s.line with
      queue := rest, access := if rest = [] then .idle else .waitQuiet, driving := []
      framesSent := min (s.line.framesSent + 1) 4294967295 } }
    let put (r : SlabRecord) : List StockEntry :=
      s.stock.table.map fun x => if x.slab.id = r.id then ⟨r, none⟩ else x
    let emptied : State := { u with
      cut := { s.cut with state := .empty, held := none, segment := none, waiting := false }
      plan := { staging := none, plan := none } }
    let final (x : StockEntry) : Bool := decide (x.slab.state = .cut) || decide (x.slab.state = .scrapped)
    let place (table : List StockEntry) (r : SlabRecord) : List StockEntry :=
      if table.length < 200 then table ++ [⟨r, none⟩]
      else if table.any final = true then table.eraseP final ++ [⟨r, none⟩]
      else table
    (∀ r, e.notice = .yardIn r → r.state = .free → s.cut.held ≠ some r.id → s.slab r.id = none →
      (s.stock.table.length < 200 → exec .cleanEcho s = .next (answer e.cmd .ok (.slabId r.id)
        { u with stock := { s.stock with table := s.stock.table ++ [⟨r, none⟩] } }))
      ∧ (200 ≤ s.stock.table.length →
        (s.stock.table.any fun x => decide (x.slab.state = .cut) || decide (x.slab.state = .scrapped)) = true →
        exec .cleanEcho s = .next (answer e.cmd .ok (.slabId r.id)
          { u with stock := { s.stock with
            table := (s.stock.table.eraseP fun x =>
              decide (x.slab.state = .cut) || decide (x.slab.state = .scrapped)) ++ [⟨r, none⟩] } }))
      ∧ (200 ≤ s.stock.table.length → (∀ x ∈ s.stock.table, x.slab.state ≠ .cut ∧ x.slab.state ≠ .scrapped) →
        exec .cleanEcho s = .next (answer e.cmd .full .none (raise .stockFull r.id.seq u))))
    ∧ (∀ pre r v, s.slab r.id = some v → v.version = pre → v.state = .claimed → v.holder = some s.station →
      (e.notice = .lapse pre r → r.state = .free → exec .cleanEcho s = .next
        { emptied with stock := { s.stock with table := put r, window := none, heldExpiry := false } })
      ∧ (e.notice = .free .released pre r → r.state = .free →
        exec .cleanEcho s = .next (answer e.cmd .ok .none
          { emptied with stock := { s.stock with table := put r, window := none, heldExpiry := false } }))
      ∧ (e.notice = .load pre r → r.state = .loaded →
        exec .cleanEcho s = .next (answer e.cmd .ok .none { u with
          stock := { s.stock with table := put r, window := none, heldExpiry := false }
          cut := { s.cut with state := .loaded, waiting := false, segment := none }
          plan := { staging := none, plan := none } })))
    ∧ (∀ pre r v, s.slab r.id = some v → v.version = pre → v.state = .loaded → v.holder = some s.station →
      (e.notice = .free .unloaded pre r → r.state = .free →
        exec .cleanEcho s = .next (answer e.cmd .ok .none
          { emptied with stock := { s.stock with table := put r } }))
      ∧ (e.notice = .split pre [r] → r.state = .cut → s.cut.state = .splitting → 2 ≤ s.cut.splitLeft →
        exec .cleanEcho s = .next { u with
          stock := { s.stock with table := put r }
          cut := { s.cut with splitLeft := s.cut.splitLeft - 1 }
          plan := { s.plan with plan := none } }))
    ∧ (∀ (pre : Nat) (first children : List SlabRecord), e.notice = .split pre (first ++ children) →
      first = [] ∨ (∃ r v, first = [r] ∧ r.state = .cut ∧ s.slab r.id = some v ∧ v.version = pre ∧ v.state = .loaded
        ∧ v.holder = some s.station) →
      (∀ r ∈ children, r.state = .free ∧ s.slab r.id = none) → (children.map (·.id)).Nodup →
      s.cut.state = .splitting → ∃ t, exec .cleanEcho s = .next t
        ∧ t.stock = { s.stock with table := children.foldl place (match first with
          | [] => s.stock.table
          | r :: _ => put r) }
        ∧ (2 ≤ s.cut.splitLeft → t.cut = { s.cut with splitLeft := s.cut.splitLeft - 1 }
          ∧ t.plan = (if first = [] then s.plan else { s.plan with plan := none }))
        ∧ (s.stock.table.length + children.length ≤ 200 → t.boot = s.boot ∧ t.port = s.port)
        ∧ (children ≠ [] → 200 ≤ s.stock.table.length → first = [] → s.stock.table.any final = false →
          t.stock.table = s.stock.table ∧ t.boot.faults.stockFull = true)
        ∧ t.line = u.line ∧ t.water = s.water ∧ t.cost = s.cost)
    ∧ (∀ pre rs, e.notice = .split pre rs → s.cut.state = .splitting → s.cut.splitLeft = 1 →
      ∃ t, exec .cleanEcho s = .next t ∧ t.cut.state = .empty ∧ t.cut.held = none
        ∧ t.plan = { staging := none, plan := none } ∧ t.water = s.water ∧ t.cost = s.cost)
    ∧ (∀ pre r v, s.slab r.id = some v → v.version = pre → v.holder ≠ some s.station →
      (e.notice = .free .forced pre r ∧ v.state = .claimed ∧ r.state = .free)
        ∨ (e.notice = .scrap pre r ∧ v.state = .free ∧ r.state = .scrapped) →
      exec .cleanEcho s = .next (answer e.cmd .ok .none { u with stock := { s.stock with table := put r } }))
    ∧ (∀ (j : Nat) (st : JobState) (x : JobEntry), s.jobEntry j = some x →
      (e.notice = .jobOpen j ∧ st = .opened) ∨ (e.notice = .jobClose j ∧ st = .closed) →
      exec .cleanEcho s = .next (answer e.cmd .ok .none { u with cost := { s.cost with
        jobs := s.cost.jobs.map fun y =>
          if y.job = j ∧ y.state ≠ st then { y with state := st, lastChange := s.boot.shopTime } else y } }))
    ∧ (∀ (j : Nat) (st : JobState) (refused : Status), s.jobEntry j = none →
      (e.notice = .jobOpen j ∧ st = .opened ∧ refused = .full)
        ∨ (e.notice = .jobClose j ∧ st = .closed ∧ refused = .ok) →
      let blank : JobEntry :=
        { job := j, state := st, time := 0, water := 0, wear := 0, slab := 0, volume := 0, length := 0, carry := 0
          pieces := 0, late := 0, gap := false, lastChange := s.boot.shopTime }
      let shut (x : JobEntry) : Bool := decide (x.state = .closed)
      (s.cost.jobs.length < 64 → exec .cleanEcho s =
        .next (answer e.cmd .ok .none { u with cost := { s.cost with jobs := s.cost.jobs ++ [blank] } }))
      ∧ (64 ≤ s.cost.jobs.length → s.cost.jobs.any shut = true → exec .cleanEcho s = .next
        (answer e.cmd .ok .none { u with cost := { s.cost with jobs := s.cost.jobs.eraseP shut ++ [blank] } }))
      ∧ (64 ≤ s.cost.jobs.length → s.cost.jobs.any shut = false →
        exec .cleanEcho s = .next (answer e.cmd refused .none (raise .jobFull j u))))
    ∧ (∀ pre r v, e.notice = .free .orphan pre r → s.slab r.id = some v → v.version = pre → v.state = .claimed →
      r.state = .free →
      (v.holder ≠ some s.station → exec .cleanEcho s = .next { u with stock := { s.stock with table := put r } })
      ∧ (v.holder = some s.station → exec .cleanEcho s = .next { emit (.lapsed r.id) u with
        stock := { s.stock with table := put r, window := none, heldExpiry := false }
        cut := { s.cut with state := .empty, held := none, segment := none, waiting := false }
        plan := { staging := none, plan := none } }))
    ∧ (∀ rs, e.notice = .stockState rs → (∀ r ∈ rs, ∃ v, s.slab r.id = some v ∧ v.version = r.version) →
      exec .cleanEcho s = .next { u with stock := { s.stock with
        answerTouched := s.stock.answerTouched || decide (e.batch = s.stock.answerBatch) } })
    ∧ (∀ c f st sl, e.notice = .plant c f st sl → ∃ t, exec .cleanEcho s = .next t
      ∧ t.plant = { s.plant with announced := some ⟨c, st, sl⟩, announceTimer := some 100 }
      ∧ t.water.capacity = min c s.cfg.maxCapacity ∧ t.water.fresh = f ∧ t.water.stop = st
      ∧ t.water.stale = sl ∧ t.water.plantHeard = some 350 ∧ t.water.lastPlant = s.station
      ∧ t.stock = s.stock ∧ t.cost = s.cost ∧ t.plan = s.plan)
    ∧ (e.notice = .waterOverride → ∃ t, exec .cleanEcho s = .next t ∧ t.water.stop = false
      ∧ (∀ c, e.cmd = some c → t.port.outstanding = none
        ∧ PortFrame.reply ⟨replyType (cmdCode c), .ok, .none⟩ ∈ t.port.out.map (·.frame))
      ∧ t.stock = s.stock ∧ t.cost = s.cost ∧ t.plan = s.plan ∧ t.plant = s.plant)

/-- R14, R23, R169, R170: ECHO-MISMATCH: before attempt 8 the station defers for 1 to 2^min(attempt, 4) slots, whatever
the free draw is, and at the last slot's end waits for quiet again; attempt 8 loses the notice, raises LINE_LOST with
its detail word and answers its command; a SPLIT fragment lost once is queued once more, and one lost a second time is
written into the own view as though it had been applied. An expiry of the claim window that a lost LOAD or FREE held
takes effect then, behind the answer by the model's reading (log 21): while the slab is still CLAIMED here LAPSED is
signalled and a LAPSE queued (R14). The detail word of a lost STOCK-ASK (log 27), and that of a lost fragment, its own
first record's sequence (log 41), are the model's choice. -/
def Obligations.EchoDiffers : Prop :=
  ∀ s : State,
    (∀ (e : QEntry) (rest : List QEntry), s.line.access = .sending → s.line.queue = e :: rest →
      (e.attempts < 8 → ∃ slots, 1 ≤ slots ∧ slots ≤ 2 ^ min e.attempts 4
        ∧ exec .echoMismatch s = .next { s with
          freeCount := s.freeCount + 1
          line := { s.line with
            access := .deferring slots, driving := []
            deferrals := min (s.line.deferrals + 1) 4294967295 } })
      ∧ (8 ≤ e.attempts → s.line.waiters = [] → s.stock.heldExpiry = false →
        let detail : Nat := match e.notice with
          | .yardIn r | .claim _ r | .lapse _ r | .free _ _ r | .load _ r | .scrap _ r => r.id.seq
          | .split _ rs | .stockState rs => (rs.map (·.id.seq)).headD s.station
          | .tally t => t.job
          | .jobOpen j | .jobClose j => j
          | _ => s.station
        let u : State := answer e.cmd .lineLost .none (raise .lineLost detail { s with line := { s.line with
          queue := rest, access := if rest = [] then .idle else .waitQuiet, driving := [] } })
        ((∀ pre rs, e.notice ≠ .split pre rs) → exec .echoMismatch s = .next u)
        ∧ (∀ pre rs, e.notice = .split pre rs → e.second = false → s.boot.listenOnly = false →
          rest.length < 12 →
          exec .echoMismatch s = .next { u with line := { u.line with
            queue := rest ++ [{ e with attempts := 0, second := true }], access := .waitQuiet } })
        ∧ (∀ pre rs, e.notice = .split pre rs → e.second = true → s.cut.state = .splitting →
          s.cut.splitLeft = 1 → ∃ t, exec .echoMismatch s = .next t ∧ t.cut.state = .empty ∧ t.cut.held = none
            ∧ t.plan = { staging := none, plan := none } ∧ t.boot.faults.lineLost = true
            ∧ t.water = s.water ∧ t.cost = s.cost)
        ∧ (∀ pre r v, e.notice = .split pre [r] → e.second = true → s.slab r.id = some v → v.version = pre →
          v.state = .loaded → v.holder = some s.station → r.state = .cut → s.cut.state = .splitting →
          2 ≤ s.cut.splitLeft →
          exec .echoMismatch s = .next { u with
            stock := { s.stock with
              table := s.stock.table.map fun x => if x.slab.id = r.id then ⟨r, none⟩ else x }
            cut := { s.cut with splitLeft := s.cut.splitLeft - 1 }
            plan := { s.plan with plan := none } })))
    ∧ (∀ (e : QEntry) (rest : List QEntry) (pre : Nat) (r v : SlabRecord), s.line.access = .sending →
      s.line.queue = e :: rest → 8 ≤ e.attempts → s.line.waiters = [] → s.stock.heldExpiry = true →
      (∃ why, e.notice = .free why pre r) ∨ e.notice = .load pre r → s.cut.held = some r.id → s.slab r.id = some v →
      let u : State := answer e.cmd .lineLost .none (raise .lineLost r.id.seq { s with
        stock := { s.stock with heldExpiry := false }
        line := { s.line with
          queue := rest, access := if rest = [] then .idle else .waitQuiet, driving := [] } })
      (¬ (v.state = .claimed ∧ v.holder = some s.station) → exec .echoMismatch s = .next u)
      ∧ (v.state = .claimed → v.holder = some s.station → s.boot.listenOnly = false → rest.length < 12 →
        exec .echoMismatch s = .next { emit (.lapsed r.id) u with
          line := withEntry (entry (.lapse v.version { v with
            state := .free, holder := none, job := none, priority := none
            version := versionSucc v.version }) none) u.line }))
    ∧ (∀ slots, s.line.access = .deferring slots →
      exec .deferralEnd s = .next { s with line := { s.line with access := .waitQuiet } })

/-! ### The shop line: hearing -/

/-- R6, R7, R13 to R18, R20, R21, R24, R25: a heard stock notice whose precondition version is the view's and whose
precondition holds: the entry becomes the carried record, its orphan watch runs exactly while it is CLAIMED, and at a
station that did not hold the slab nothing else changes. A holder whose claim ends by another station's CLAIM, an orphan
FREE or a forced FREE is signalled, and its cut state becomes EMPTY. That a FREE entry which bears a holder, against R1,
has none to preempt is the model's choice (log 12). -/
def Obligations.StockNoticesHeard : Prop :=
  ∀ (s : State) (sender pre : Nat) (r v : SlabRecord), s.slab r.id = some v → v.version = pre →
    let watch : Option Watch :=
      if r.state = .claimed then some ⟨s.cfg.claimWindow * 10 + 600, r.version⟩ else none
    let stock : Stock := { s.stock with
      table := s.stock.table.map fun x => if x.slab.id = r.id then ⟨r, watch⟩ else x }
    let written (i : Instr) : Prop := exec i s = .next { s with stock := stock }
    let ended (i : Instr) (sg : Signal) : Prop := exec i s = .next
      { emit sg s with
        stock := { stock with window := none, heldExpiry := false }
        cut := { s.cut with state := .empty, held := none, segment := none, waiting := false }
        plan := { staging := none, plan := none } }
    (Heard sender 1 1 (.claim pre r) s → v.state = .free → written (.claimNotice sender pre r))
    ∧ (Heard sender 1 1 (.claim pre r) s → v.state = .claimed → v.holder ≠ some sender →
      v.priority.getD 0 < r.priority.getD 0 →
      (v.holder ≠ some s.station → written (.claimNotice sender pre r))
      ∧ (v.holder = some s.station → ended (.claimNotice sender pre r) (.preempted r.id)))
    ∧ (v.state = .claimed → v.holder = some sender →
      (Heard sender 1 1 (.lapse pre r) s → written (.lapseNotice sender pre r))
      ∧ (Heard sender 1 1 (.free .released pre r) s → written (.freeNotice sender .released pre r))
      ∧ (Heard sender 1 1 (.load pre r) s → written (.loadNotice sender pre r)))
    ∧ (v.state = .loaded → v.holder = some sender →
      (Heard sender 1 1 (.free .unloaded pre r) s → written (.freeNotice sender .unloaded pre r))
      ∧ (∀ index count, Heard sender index count (.split pre [r]) s → r.state = .cut →
        written (.splitNotice sender index count pre [r])))
    ∧ (v.state = .claimed → Heard sender 1 1 (.free .orphan pre r) s →
      (v.holder ≠ some s.station → written (.freeNotice sender .orphan pre r))
      ∧ (v.holder = some s.station → ended (.freeNotice sender .orphan pre r) (.lapsed r.id)))
    ∧ (v.state = .claimed → Heard sender 1 1 (.free .forced pre r) s →
      (v.holder ≠ some s.station → written (.freeNotice sender .forced pre r))
      ∧ (v.holder = some s.station → ended (.freeNotice sender .forced pre r) (.preempted r.id)))
    ∧ (v.state = .free → Heard sender 1 1 (.scrap pre r) s → written (.scrapNotice sender pre r))

/-- R2, R5, R6, R8, R28: a record heard without a precondition (YARD-IN, STOCK-STATE, a SPLIT's child), or with one
that does not answer the view: recorded when unknown, into a free slot, or for the oldest CUT or SCRAPPED entry, or
not with STOCK_FULL raised; adopted when newer; ignored otherwise. A hold of this station that its cut state does not
know is recorded as freed; a hold that an adopted record denies ends with PREEMPTED. That a SPLIT's record in any
state but CUT is a child (log 18), and that a FREE with a reason R7 does not name has no precondition that holds (log
12), are the model's readings. -/
def Obligations.CatchUp : Prop :=
  ∀ (s : State) (sender index count pre : Nat) (r : SlabRecord) (i : Instr),
    ((i = .yardInNotice sender r ∧ Heard sender 1 1 (.yardIn r) s)
      ∨ (i = .stockStateNotice sender index count [r] ∧ Heard sender index count (.stockState [r]) s)
      ∨ (i = .splitNotice sender index count pre [r] ∧ r.state ≠ .cut
        ∧ Heard sender index count (.split pre [r]) s)
      ∨ (∃ k, i = stockEvent k sender pre r ∧ Heard sender 1 1 (stockNotice k pre r) s
        ∧ (k = .splitParent → r.state = .cut)
        ∧ ∀ v, s.slab r.id = some v →
          v.version ≠ pre ∨ (precondition k sender r v = false ∧ newer r.version v.version = true))) →
    let holds : Prop := s.cut.state ≠ .empty ∧ s.cut.held = some r.id
    let shown : Prop := (r.state = .claimed ∨ r.state = .loaded) ∧ r.holder = some s.station
    let freed : SlabRecord := { r with
      state := .free, holder := none, job := none, priority := none, version := versionSucc r.version }
    let taken (a : SlabRecord) : StockEntry :=
      ⟨a, if a.state = .claimed then some ⟨s.cfg.claimWindow * 10 + 600, a.version⟩ else none⟩
    let final (e : StockEntry) : Bool := decide (e.slab.state = .cut) || decide (e.slab.state = .scrapped)
    let later (v : SlabRecord) : Prop :=
      1 ≤ (r.version + (65536 - v.version % 65536)) % 65536
        ∧ (r.version + (65536 - v.version % 65536)) % 65536 ≤ 32767
    let replaced (a : SlabRecord) : List StockEntry :=
      s.stock.table.map fun x => if x.slab.id = r.id then taken a else x
    (∀ v, s.slab r.id = some v → ¬ later v → exec i s = .next s)
    ∧ (∀ a : SlabRecord, (shown ∧ ¬ holds ∧ a = freed) ∨ (shown ∧ holds ∧ a = r) ∨ (¬ shown ∧ a = r) →
      (shown ∨ ¬ holds ∨ s.cut.state = .splitting) →
      (∀ v, s.slab r.id = some v → later v →
        exec i s = .next { s with stock := { s.stock with table := replaced a } })
      ∧ (s.slab r.id = none → s.stock.table.length < 200 →
        exec i s = .next { s with stock := { s.stock with table := s.stock.table ++ [taken a] } })
      ∧ (s.slab r.id = none → 200 ≤ s.stock.table.length → s.stock.table.any final = true →
        exec i s = .next { s with stock := { s.stock with
          table := s.stock.table.eraseP final ++ [taken a] } })
      ∧ (s.slab r.id = none → 200 ≤ s.stock.table.length → s.stock.table.any final = false →
        exec i s = .next (raise .stockFull r.id.seq s)))
    ∧ (∀ v, s.slab r.id = some v → later v → ¬ shown → holds → s.cut.state ≠ .splitting →
      ∃ t, exec i s = .next t ∧ t.stock = { s.stock with table := replaced r, window := none, heldExpiry := false }
        ∧ t.cut = { s.cut with state := .empty, held := none, segment := none, waiting := false }
        ∧ t.plan = { staging := none, plan := none } ∧ t.port = (emit (.preempted r.id) s).port
        ∧ t.water = s.water ∧ t.cost = s.cost ∧ t.boot = s.boot
        ∧ (s.cut.state = .cutting ∨ s.cut.state = .suspended → s.boot.listenOnly = false →
          drawWaiting t.line = true)
        ∧ (s.cut.state ≠ .cutting → s.cut.state ≠ .suspended → t.line = s.line))

/-- R6, R21, R28, R171: the records of a SPLIT or STOCK-STATE fragment are applied one after another. -/
def Obligations.FragmentsInOrder : Prop :=
  ∀ (s : State) (sender index count pre : Nat) (r : SlabRecord) (rs : List SlabRecord), rs ≠ [] →
    (Heard sender index count (.split pre (r :: rs)) s →
      ∃ t, exec (.splitNotice sender index count pre [r]) s = .next t
        ∧ exec (.splitNotice sender index count pre (r :: rs)) s
          = exec (.splitNotice sender index count pre rs) t)
    ∧ (Heard sender index count (.stockState (r :: rs)) s →
      ∃ t, exec (.stockStateNotice sender index count [r]) s = .next t
        ∧ exec (.stockStateNotice sender index count (r :: rs)) s
          = exec (.stockStateNotice sender index count rs) t)

/-- R26, R27, R118, R171: a RESTART frees every slab the restarted station held and removes its draw entry; a
STOCK-ASK is answered by a console with every entry neither CUT nor SCRAPPED, in order of entry, in fragments of at
most 128 payload bytes, and by no other station; while a queued answer has had no fragment sent a STOCK-ASK adds
nothing, and afterwards it is answered afresh (kept as log 10 says). -/
def Obligations.RestartAndStockAsk : Prop :=
  ∀ (s : State) (sender : Nat),
    (Heard sender 1 1 .restart s → ∃ t, exec (.restartNotice sender) s = .next t
      ∧ t.stock = { s.stock with table := s.stock.table.map fun e =>
        if (e.slab.state = .claimed ∨ e.slab.state = .loaded) ∧ e.slab.holder = some sender then
          ⟨{ e.slab with
            state := .free, holder := none, job := none, priority := none
            version := versionSucc e.slab.version }, none⟩
        else e }
      ∧ t.water.draws = s.water.draws.filter (fun d => decide (d.station ≠ sender))
      ∧ t.water.capacity = s.water.capacity ∧ t.cut.state = s.cut.state ∧ t.cut.held = s.cut.held
      ∧ t.plan = s.plan ∧ t.cost = s.cost ∧ t.plant = s.plant)
    ∧ (Heard sender 1 1 .stockAsk s →
      (s.role ≠ .console ∨ s.boot.listenOnly = true → exec (.stockAskNotice sender) s = .next s)
      ∧ (∀ e ∈ allEntries s.line, ∀ rs, e.notice = .stockState rs → e.batch = s.stock.answerBatch →
        s.stock.answerTouched = false → exec (.stockAskNotice sender) s = .next s)
      ∧ (s.role = .console → s.boot.listenOnly = false → s.line.waiters = [] →
        (s.stock.answerTouched = true ∨ ∀ e ∈ s.line.queue, ∀ rs, e.notice ≠ .stockState rs) →
        (∀ e ∈ s.stock.table, e.slab.defects.length ≤ 4) →
        ∃ (t : State) (es : List QEntry) (parts : List (List SlabRecord)),
          exec (.stockAskNotice sender) s = .next t
          ∧ allEntries t.line = s.line.queue ++ es
          ∧ es.map (·.notice) = parts.map .stockState
          ∧ parts.flatten = (s.stock.table.map (·.slab)).filter
            (fun r => decide (r.state ≠ .cut ∧ r.state ≠ .scrapped))
          ∧ (∀ rs ∈ parts, rs ≠ [] ∧ 4 + (rs.map slabSize).sum ≤ 128)
          ∧ (∀ e ∈ es, 1 ≤ e.index ∧ e.index ≤ e.count ∧ e.count ≤ 8)
          ∧ t.stock.table = s.stock.table ∧ t.cut = s.cut ∧ t.water = s.water ∧ t.port = s.port))

/-- R109 to R112, R114, R126: a heard DRAW: the sender's entry takes its request, with the lock clear the lesser of
the request and what the others leave, with the lock set the lesser of the carried grant and the request; then the fit
rule, OVERDRAW while the locked grants exceed capacity, and WATER only for a change of the own grant. A DRAW that
leaves the sender's grant lower, by a lower request or by an unlocking, frees water: a PROMPT is then queued while the
own entry is unlocked and its grant below the own request, and one that leaves it no lower queues nothing. That the
grants are compared as they stand before the fit rule is the model's reading (log 20), and so is that an own DRAW
being sent absorbs the PROMPT (log 14). -/
def Obligations.DrawHeard : Prop :=
  ∀ (s : State) (sender request : Nat) (lock : Bool) (grant : Nat),
    Heard sender 1 1 (.draw request lock grant) s →
    let before : Nat := ((findDraw s.water.draws sender).map (·.granted)).getD 0
    ∃ t, exec (.drawNotice sender request lock grant) s = .next t
      ∧ t.water.draws = fitTable s.water.capacity (putDraw
        ⟨sender, request, if lock = true then min grant request
          else min request (s.water.capacity - othersSum s.water.draws sender), lock, some 350⟩ s.water.draws)
      ∧ (lock = true →
        findDraw t.water.draws sender = some ⟨sender, request, min grant request, true, some 350⟩)
      ∧ t.water.overdraw = decide (s.water.capacity < lockedSum t.water.draws)
      ∧ (s.water.overdraw = false → t.water.overdraw = true →
        t.boot.lastFault = some ⟨.overdraw, s.boot.shopTime, sender⟩)
      ∧ (t.ownGrant = s.ownGrant → t.water.overdraw = s.water.overdraw → t.port = s.port)
      ∧ (t.ownGrant ≠ s.ownGrant → s.port.out.length < 14 →
        PortFrame.signal (.water t.ownGrant s.water.ownRequest s.ownDraw.locked s.water.capacity s.water.stop
          s.water.stale) ∈ t.port.out.map (·.frame))
      ∧ (before ≤ (if lock = true then min grant request
          else min request (s.water.capacity - othersSum s.water.draws sender)) → t.line = s.line)
      ∧ (∀ b, findDraw s.water.draws sender = some b →
        (if lock = true then min grant request
          else min request (s.water.capacity - othersSum s.water.draws sender)) < b.granted →
        request < b.requested ∨ (b.locked = true ∧ lock = false) →
        s.boot.runState = .running → s.ownDraw.locked = false →
        (t.ownGrant < s.water.ownRequest → QueueOpen s → drawWaiting s.line = false →
          t.line = withEntry { entry (.draw s.water.ownRequest false 0) none with
            purpose := some .prompt } s.line)
        ∧ (t.ownGrant < s.water.ownRequest → s.boot.listenOnly = false → drawWaiting s.line = true →
          t.line = absorbDraw .prompt none s.line)
        ∧ (s.water.ownRequest ≤ t.ownGrant → t.line = s.line))
      ∧ t.water.capacity = s.water.capacity ∧ t.water.stop = s.water.stop ∧ t.water.fresh = s.water.fresh
      ∧ t.water.refresh = s.water.refresh ∧ t.water.ownRequest = s.water.ownRequest
      ∧ t.stock = s.stock ∧ t.plan = s.plan ∧ t.cost = s.cost ∧ t.plant = s.plant

/-- R65, R120, R122, R125: a heard PLANT sets capacity (at most the maximum), fresh fraction, stop, stale, the
plant-heard timer and the last plant station, and runs the fit rule; a stop that becomes set in CUTTING is signalled
HALT; a WATER-OVERRIDE clears the stop alone; the plant-heard timer's expiry sets the fallback capacity and the silent
mark and raises PLANT_SILENT with the last plant station. -/
def Obligations.PlantHeard : Prop :=
  ∀ s : State,
    (∀ (sender capacity fresh : Nat) (stop stale : Bool), Heard sender 1 1 (.plant capacity fresh stop stale) s →
      ∃ t, exec (.plantNotice sender capacity fresh stop stale) s = .next t
        ∧ t.water = { s.water with
          capacity := min capacity s.cfg.maxCapacity, fresh := fresh, stop := stop, stale := stale
          plantHeard := some 350, silent := false, lastPlant := sender
          draws := fitTable (min capacity s.cfg.maxCapacity) s.water.draws
          overdraw := decide (min capacity s.cfg.maxCapacity < lockedSum s.water.draws) }
        ∧ (∀ seg, s.water.stop = false → stop = true → s.cut.state = .cutting → s.cut.segment = some seg →
          s.port.out.length < 12 →
          PortFrame.signal (.halt seg.step seg.doneBefore) ∈ t.port.out.map (·.frame))
        ∧ (s.boot.runState = .running → s.ownDraw.locked = false → QueueOpen s → drawWaiting s.line = false →
          s.water.capacity < min capacity s.cfg.maxCapacity → s.ownGrant < s.water.ownRequest →
          t.line = withEntry { entry (.draw s.water.ownRequest false 0) none with
            purpose := some .prompt } s.line)
        ∧ (min capacity s.cfg.maxCapacity ≤ s.water.capacity → t.line = s.line)
        ∧ t.cut = { s.cut with waiting := t.cut.waiting } ∧ t.plan = s.plan ∧ t.stock = s.stock
        ∧ t.cost = s.cost ∧ t.plant = s.plant)
    ∧ (∀ sender : Nat, Heard sender 1 1 .waterOverride s →
      ∃ t, exec (.waterOverrideNotice sender) s = .next t
        ∧ t.water = { s.water with
          stop := false, overdraw := decide (s.water.capacity < lockedSum s.water.draws) }
        ∧ (s.cut.state = .suspended → t.cut.waiting = false)
        ∧ t.cut = { s.cut with waiting := t.cut.waiting } ∧ t.line = s.line ∧ t.plan = s.plan
        ∧ t.stock = s.stock ∧ t.cost = s.cost ∧ t.plant = s.plant)
    ∧ (∀ n, s.inService = true → s.water.plantHeard = some n →
      ∃ t, exec .plantHeardTimerExpiry s = .next t
        ∧ t.water = { s.water with
          capacity := s.cfg.fallback, plantHeard := none, silent := true
          draws := fitTable s.cfg.fallback s.water.draws
          overdraw := decide (s.cfg.fallback < lockedSum s.water.draws) }
        ∧ t.boot.faults.plantSilent = true
        ∧ t.boot.lastFault = some ⟨.plantSilent, s.boot.shopTime, s.water.lastPlant⟩
        ∧ t.plan = s.plan ∧ t.stock = s.stock ∧ t.cost = s.cost ∧ t.plant = s.plant)

/-- R142, R143, R145, R148, R151: the job notices: a TALLY adds its amounts to the totals of an OPEN job, the length
through the carry, or its four costs to the late sum of a CLOSED one, each stopping at 999,999,999; JOB-OPEN and
JOB-CLOSE set the state of a known job; an unknown job is created, into a free entry or for the oldest CLOSED one, or
JOB_FULL is raised. -/
def Obligations.JobNotices : Prop :=
  ∀ (s : State) (sender : Nat),
    let big : Nat := 999999999
    let blank (j : Nat) (st : JobState) : JobEntry :=
      { job := j, state := st, time := 0, water := 0, wear := 0, slab := 0, volume := 0, length := 0, carry := 0
        pieces := 0, late := 0, gap := false, lastChange := s.boot.shopTime }
    let shut (e : JobEntry) : Bool := decide (e.state = .closed)
    let with_ (jobs : List JobEntry) : State := { s with cost := { s.cost with jobs := jobs } }
    let changed (j : Nat) (e : JobEntry) : State :=
      with_ (s.cost.jobs.map fun x => if x.job = j then e else x)
    ((s.cost.jobs.map (·.job)).Nodup →
      ∀ (t : Tally) (e : JobEntry), Heard sender 1 1 (.tally t) s → t.job ≠ 0 → s.jobEntry t.job = some e →
        (e.state = .opened → exec (.tallyNotice sender t) s = .next (changed t.job { e with
          time := min (e.time + t.time) big, water := min (e.water + t.water) big
          wear := min (e.wear + t.wear) big, slab := min (e.slab + t.slab) big
          volume := min (e.volume + t.volume) big
          length := min (e.length + (e.carry + t.length) / 10) big, carry := (e.carry + t.length) % 10
          pieces := min (e.pieces + t.pieces) 65535, lastChange := s.boot.shopTime }))
        ∧ (e.state = .closed → exec (.tallyNotice sender t) s = .next (changed t.job { e with
          late := min (e.late + (t.time + t.water + t.wear + t.slab)) big, lastChange := s.boot.shopTime })))
    ∧ (∀ t : Tally, Heard sender 1 1 (.tally t) s →
      (t.job = 0 → exec (.tallyNotice sender t) s = .next s)
      ∧ (t.job ≠ 0 → s.jobEntry t.job = none → 64 ≤ s.cost.jobs.length → s.cost.jobs.any shut = false →
        exec (.tallyNotice sender t) s = .next (raise .jobFull t.job s))
      ∧ (let charged : JobEntry := { blank t.job .opened with
          time := min t.time big, water := min t.water big, wear := min t.wear big, slab := min t.slab big
          volume := min t.volume big, length := min (t.length / 10) big, carry := t.length % 10
          pieces := min t.pieces 65535 }
        (t.job ≠ 0 → s.jobEntry t.job = none → s.cost.jobs.length < 64 →
          exec (.tallyNotice sender t) s = .next (with_ (s.cost.jobs ++ [charged])))
        ∧ (t.job ≠ 0 → s.jobEntry t.job = none → 64 ≤ s.cost.jobs.length → s.cost.jobs.any shut = true →
          exec (.tallyNotice sender t) s = .next (with_ (s.cost.jobs.eraseP shut ++ [charged])))))
    ∧ (∀ (j : Nat) (i : Instr) (st : JobState),
      (i = .jobOpenNotice sender j ∧ st = .opened ∧ Heard sender 1 1 (.jobOpen j) s)
        ∨ (i = .jobCloseNotice sender j ∧ st = .closed ∧ Heard sender 1 1 (.jobClose j) s) →
      ((s.cost.jobs.map (·.job)).Nodup → ∀ e, s.jobEntry j = some e → exec i s = .next (changed j { e with
        state := st, lastChange := if e.state = st then e.lastChange else s.boot.shopTime }))
      ∧ (s.jobEntry j = none → s.cost.jobs.length < 64 →
        exec i s = .next (with_ (s.cost.jobs ++ [blank j st])))
      ∧ (s.jobEntry j = none → 64 ≤ s.cost.jobs.length → s.cost.jobs.any shut = true →
        exec i s = .next (with_ (s.cost.jobs.eraseP shut ++ [blank j st])))
      ∧ (s.jobEntry j = none → 64 ≤ s.cost.jobs.length → s.cost.jobs.any shut = false →
        exec i s = .next (raise .jobFull j s)))

/-- R159, R162, R172, R173, R176: a frame that was in progress as the station joined the line is discarded at its end,
whatever it is, without being counted, and the next is heard; a frame that fails a check adds one to receive errors; a
frame that bears the station's own number raises DUP_STATION and puts the station in listen-only, its queue and waiter
list emptied and its access state IDLE, the SPLIT fragments in them written into the own view (R70), with the last of
which the cut state is EMPTY; in listen-only such a frame is discarded. -/
def Obligations.HearingFaults : Prop :=
  ∀ s : State,
    (s.joined = true → s.line.access ≠ .sending → s.line.midFrame = true → ∀ i : Instr,
      (i = .duplicateNumber ∨ (∃ bytes, i = .frameDropped bytes)
        ∨ (∃ sender index count n, i = noticeEvent sender index count n)) →
      exec i s = .next { s with line := { s.line with midFrame := false } })
    ∧ (∀ bytes : List Byte, frameFault bytes ≠ none → s.joined = true → s.line.access ≠ .sending →
      s.line.midFrame = false → exec (.frameDropped bytes) s = .next { s with line := { s.line with
        receiveErrors := min (s.line.receiveErrors + 1) 4294967295 } })
    ∧ (∀ bytes : List Byte, s.joined = false → exec (.frameDropped bytes) s = .next s)
    ∧ (s.joined = true → s.line.access ≠ .sending → s.line.midFrame = false →
      (s.boot.listenOnly = true → exec .duplicateNumber s = .next s)
      ∧ (s.boot.listenOnly = false → ∃ t, exec .duplicateNumber s = .next t
        ∧ t.boot.listenOnly = true ∧ t.boot.runState = .listenOnly ∧ t.boot.faults.dupStation = true
        ∧ t.line = { s.line with queue := [], waiters := [], access := .idle, driving := [] }
        ∧ t.stock.heldExpiry = false ∧ t.water = s.water ∧ t.cost = s.cost
        ∧ ((∀ e ∈ allEntries s.line, ∀ pre rs, e.notice ≠ .split pre rs) →
          t.boot.lastFault = some ⟨.dupStation, s.boot.shopTime, s.station⟩
          ∧ t.stock.table = s.stock.table ∧ t.cut = s.cut ∧ t.plan = s.plan)
        ∧ (s.cut.state = .splitting → 1 ≤ s.cut.splitLeft →
          ((allEntries s.line).filter fun e => match e.notice with | .split _ _ => true | _ => false).length
            = s.cut.splitLeft →
          t.cut.state = .empty ∧ t.cut.held = none ∧ t.plan = { staging := none, plan := none })
        ∧ (∀ pre r v, s.line.waiters = [] →
          (s.line.queue.map (·.notice)).filter (fun n => match n with | .split _ _ => true | _ => false)
            = [.split pre [r]] →
          s.slab r.id = some v → v.version = pre → v.state = .loaded → v.holder = some s.station →
          r.state = .cut → s.cut.state = .splitting →
          t.stock.table = s.stock.table.map fun x => if x.slab.id = r.id then ⟨r, none⟩ else x)
        ∧ (∀ e ∈ allEntries s.line, ∀ c, e.cmd = some c →
          PortFrame.reply ⟨replyType (cmdCode c), .silent, .none⟩ ∈ t.port.out.map (·.frame)
            ∧ t.port.outstanding = none))
      ∧ (∀ q l g, 1 ≤ s.station → s.station ≤ 30 →
        exec (.drawNotice s.station q l g) s = exec .duplicateNumber s))

/-! ### Timers -/

/-- R14, R16, R78, R113, R117: the expiries of the claim window (a LAPSE is queued, or the expiry is held while a LOAD
or FREE for the slab is queued), of an orphan watch, of priming (with the next step's number in CLEAR-TO-CUT, R61), of
the refresh timer and of a peer's age timer. -/
def Obligations.OwnTimers : Prop :=
  ∀ s : State, s.inService = true →
    (∀ (n : Nat) (r : SlabRecord), s.stock.window = some n → s.heldSlab = some r → r.state = .claimed →
      r.holder = some s.station →
      (QueueOpen s → (s.line.queue.any (holdsExpiry r.id)) = false →
        exec .claimWindowExpiry s = .next { emit (.lapsed r.id) s with
          stock := { s.stock with window := none }
          line := withEntry (entry (.lapse r.version { r with
            state := .free, holder := none, job := none, priority := none
            version := versionSucc r.version }) none) s.line })
      ∧ ((s.line.queue.any (holdsExpiry r.id)) = true →
        exec .claimWindowExpiry s = .next { s with stock := { s.stock with window := none, heldExpiry := true } }))
    ∧ (∀ (e : StockEntry) (w : Watch), findSlab s.stock.table e.slab.id = some e → e.watch = some w →
      QueueOpen s → exec (.orphanWatchExpiry e.slab.id) s = .next { s with
        stock := { s.stock with table := s.stock.table.map fun x =>
          if x.slab.id = e.slab.id then { e with watch := none } else x }
        line := withEntry (entry (.free .orphan w.version { e.slab with
          state := .free, holder := none, job := none, priority := none
          version := versionSucc e.slab.version }) none) s.line })
    ∧ (∀ n, s.cut.priming = some n →
      (s.cut.state ≠ .planned →
        exec .primingEnd s = .next { s with cut := { s.cut with priming := none } })
      ∧ (s.cut.state = .planned →
        let ready : Prop := s.cut.parked = false ∧ s.water.stop = false
          ∧ s.bladeType.wornLimit < s.cut.blade.height ∧ minWetting s.bladeType ≤ s.ownGrant
        (¬ ready →
          exec .primingEnd s = .next { s with cut := { s.cut with priming := none, waiting := true } })
        ∧ (ready → ∃ k, (∀ p n, s.plan.plan = some p → nextPending p = some n → k = n) ∧ exec .primingEnd s = .next
          { emit (.clearToCut k) s with cut := { s.cut with priming := none, waiting := false } })))
    ∧ (∀ n, s.water.refresh = some n →
      let restarted : State := { s with water := { s.water with refresh := some 100 } }
      (s.water.ownRequest = 0 → s.ownGrant = 0 → s.ownDraw.locked = false →
        exec .refreshTimerExpiry s = .next restarted)
      ∧ (s.water.ownRequest ≠ 0 ∨ s.ownGrant ≠ 0 ∨ s.ownDraw.locked = true →
        (s.boot.listenOnly = true → exec .refreshTimerExpiry s = .next restarted)
        ∧ (QueueOpen s → drawWaiting s.line = false →
          exec .refreshTimerExpiry s = .next { restarted with
            line := withEntry { entry (.draw s.water.ownRequest false 0) none with
              purpose := some .refresh } s.line })))
    ∧ (∀ (station n : Nat) (d : DrawEntry), station ≠ s.station → findDraw s.water.draws station = some d →
      d.age = some n → ∃ t, exec (.ageTimerExpiry station) s = .next t
        ∧ t.water = { s.water with
          draws := s.water.draws.filter fun x => decide (x.station ≠ station)
          overdraw := decide (s.water.capacity
            < lockedSum (s.water.draws.filter fun x => decide (x.station ≠ station))) }
        ∧ t.stock = s.stock ∧ t.cost = s.cost ∧ t.plan = s.plan)
end

