-- ==== Sys2Proof/Laws/State.lean ====
section
/-! SUPPORT. The fields of a port or a line unit after each update of it. -/

namespace Sys2Proof.Machine

@[simp] theorem startTransmit_fields (p : Port) :
    (startTransmit p).outstanding = p.outstanding ∧ (startTransmit p).portErrors = p.portErrors
      ∧ (startTransmit p).overrun = p.overrun := by
  unfold startTransmit
  split <;> simp

@[simp] theorem beginFirst_length (es : List OutEntry) : (beginFirst es).length = es.length := by
  induction es with
  | nil => rfl
  | cons e es ih => unfold beginFirst; split <;> simp [ih]

/-- Beginning a transmission adds no frame and removes none. -/
@[simp] theorem startTransmit_length (p : Port) : (startTransmit p).out.length = p.out.length := by
  unfold startTransmit
  split <;> simp

/-- Beginning a transmission changes no frame. -/
@[simp] theorem beginFirst_frames (es : List OutEntry) : (beginFirst es).map (·.frame) = es.map (·.frame) := by
  induction es with
  | nil => rfl
  | cons e es ih => unfold beginFirst; split <;> simp [ih]

@[simp] theorem startTransmit_frames (p : Port) :
    (startTransmit p).out.map (·.frame) = p.out.map (·.frame) := by
  unfold startTransmit
  split <;> simp

@[simp] theorem addReply_fields (r : Reply) (p : Port) :
    (addReply r p).outstanding = p.outstanding ∧ (addReply r p).portErrors = p.portErrors
      ∧ (addReply r p).txBusy = p.txBusy := by
  unfold addReply
  (repeat' split) <;> simp

@[simp] theorem addSignal_fields (b : Bool) (sg : Signal) (p : Port) :
    (addSignal b sg p).outstanding = p.outstanding ∧ (addSignal b sg p).portErrors = p.portErrors
      ∧ (addSignal b sg p).txBusy = p.txBusy := by
  unfold addSignal
  generalize (if isWater (.signal sg) = true then p.out.filter fun e => !isWater e.frame else p.out) = out
  dsimp only
  split <;> simp

@[simp] theorem putNotices_fields (w : WaitCause) (es : List QEntry) (l : Line) :
    (putNotices w es l).driving = l.driving ∧ (putNotices w es l).framesSent = l.framesSent
      ∧ (putNotices w es l).deferrals = l.deferrals ∧ (putNotices w es l).receiveErrors = l.receiveErrors
      ∧ (putNotices w es l).midFrame = l.midFrame := by
  simp [putNotices]

@[simp] theorem refill_fields (l : Line) :
    (refill l).driving = l.driving ∧ (refill l).framesSent = l.framesSent
      ∧ (refill l).deferrals = l.deferrals ∧ (refill l).receiveErrors = l.receiveErrors
      ∧ (refill l).midFrame = l.midFrame
      ∧ (refill l).access = l.access := by
  unfold refill
  (repeat' split) <;> simp

@[simp] theorem dropHead_fields (l : Line) :
    (dropHead l).driving = [] ∧ (dropHead l).framesSent = l.framesSent
      ∧ (dropHead l).deferrals = l.deferrals ∧ (dropHead l).receiveErrors = l.receiveErrors
      ∧ (dropHead l).midFrame = l.midFrame := by
  simp [dropHead]

end Sys2Proof.Machine
end

