-- ==== Sys2Proof/Laws/FrameOps.lean ====
section
/-! SUPPORT. What the operations every unit shares leave unchanged: for each operation one lemma of the fields it does not
touch, and one of what is read from them. -/

namespace Sys2Proof.Machine

/-- What every step of a fold keeps, the fold keeps. -/
theorem foldl_keeps {α β γ : Type} (f : β → α → β) (g : β → γ) (h : ∀ b a, g (f b a) = g b) (l : List α) (b : β) :
    g (l.foldl f b) = g b := by
  induction l generalizing b with
  | nil => rfl
  | cons a l ih => rw [List.foldl_cons, ih, h]


@[simp] theorem emit_fields (sg : Signal) (s : State) :
    (emit sg s).pending = s.pending ∧ (emit sg s).freeCount = s.freeCount ∧ (emit sg s).boot = s.boot
      ∧ (emit sg s).port.outstanding = s.port.outstanding ∧ (emit sg s).port.portErrors = s.port.portErrors
      ∧ (emit sg s).line = s.line ∧ (emit sg s).stock = s.stock ∧ (emit sg s).plan = s.plan
      ∧ (emit sg s).cut = s.cut ∧ (emit sg s).water = s.water ∧ (emit sg s).plant = s.plant
      ∧ (emit sg s).cost = s.cost := by
  simp [emit]

@[simp] theorem emit_views (sg : Signal) (s : State) :
    (emit sg s).cfg = s.cfg ∧ (emit sg s).station = s.station ∧ (emit sg s).role = s.role
      ∧ (emit sg s).now = s.now ∧ (emit sg s).joined = s.joined ∧ (emit sg s).inService = s.inService
      ∧ (emit sg s).bladeType = s.bladeType := by
  simp [State.cfg, State.station, State.role, State.now, State.joined, State.inService,
    State.bladeType]

@[simp] theorem replyNow_fields (n : Nat) (st : Status) (b : ReplyBody) (s : State) :
    (replyNow n st b s).pending = s.pending ∧ (replyNow n st b s).freeCount = s.freeCount
      ∧ (replyNow n st b s).boot = s.boot ∧ (replyNow n st b s).port.outstanding = s.port.outstanding
      ∧ (replyNow n st b s).port.portErrors = s.port.portErrors ∧ (replyNow n st b s).line = s.line
      ∧ (replyNow n st b s).stock = s.stock ∧ (replyNow n st b s).plan = s.plan
      ∧ (replyNow n st b s).cut = s.cut ∧ (replyNow n st b s).water = s.water
      ∧ (replyNow n st b s).plant = s.plant ∧ (replyNow n st b s).cost = s.cost := by
  simp [replyNow]

@[simp] theorem replyNow_views (n : Nat) (st : Status) (b : ReplyBody) (s : State) :
    (replyNow n st b s).cfg = s.cfg ∧ (replyNow n st b s).station = s.station
      ∧ (replyNow n st b s).role = s.role ∧ (replyNow n st b s).now = s.now
      ∧ (replyNow n st b s).joined = s.joined ∧ (replyNow n st b s).inService = s.inService
      ∧ (replyNow n st b s).bladeType = s.bladeType := by
  simp [State.cfg, State.station, State.role, State.now, State.joined, State.inService,
    State.bladeType]

@[simp] theorem reply_fields (c : Cmd) (st : Status) (b : ReplyBody) (s : State) :
    (reply c st b s).pending = s.pending ∧ (reply c st b s).freeCount = s.freeCount
      ∧ (reply c st b s).boot = s.boot ∧ (reply c st b s).port.outstanding = s.port.outstanding
      ∧ (reply c st b s).port.portErrors = s.port.portErrors ∧ (reply c st b s).line = s.line
      ∧ (reply c st b s).stock = s.stock ∧ (reply c st b s).plan = s.plan ∧ (reply c st b s).cut = s.cut
      ∧ (reply c st b s).water = s.water ∧ (reply c st b s).plant = s.plant ∧ (reply c st b s).cost = s.cost := by
  simp [reply]

@[simp] theorem reply_views (c : Cmd) (st : Status) (b : ReplyBody) (s : State) :
    (reply c st b s).cfg = s.cfg ∧ (reply c st b s).station = s.station ∧ (reply c st b s).role = s.role
      ∧ (reply c st b s).now = s.now ∧ (reply c st b s).joined = s.joined
      ∧ (reply c st b s).inService = s.inService ∧ (reply c st b s).bladeType = s.bladeType := by
  simp [State.cfg, State.station, State.role, State.now, State.joined, State.inService,
    State.bladeType]

@[simp] theorem answer_fields (c : Option Cmd) (st : Status) (b : ReplyBody) (s : State) :
    (answer c st b s).pending = s.pending ∧ (answer c st b s).freeCount = s.freeCount
      ∧ (answer c st b s).boot = s.boot ∧ (answer c st b s).port.portErrors = s.port.portErrors
      ∧ (answer c st b s).line = s.line ∧ (answer c st b s).stock = s.stock
      ∧ (answer c st b s).plan = s.plan ∧ (answer c st b s).cut = s.cut ∧ (answer c st b s).water = s.water
      ∧ (answer c st b s).plant = s.plant ∧ (answer c st b s).cost = s.cost := by
  unfold answer
  try dsimp only
  (repeat' split) <;> simp

@[simp] theorem answer_views (c : Option Cmd) (st : Status) (b : ReplyBody) (s : State) :
    (answer c st b s).cfg = s.cfg ∧ (answer c st b s).station = s.station ∧ (answer c st b s).role = s.role
      ∧ (answer c st b s).now = s.now ∧ (answer c st b s).joined = s.joined
      ∧ (answer c st b s).inService = s.inService ∧ (answer c st b s).bladeType = s.bladeType := by
  simp [State.cfg, State.station, State.role, State.now, State.joined, State.inService,
    State.bladeType]

@[simp] theorem keep_fields (c : Cmd) (s : State) :
    (keep c s).pending = s.pending ∧ (keep c s).freeCount = s.freeCount ∧ (keep c s).boot = s.boot
      ∧ (keep c s).port.out = s.port.out ∧ (keep c s).port.txBusy = s.port.txBusy
      ∧ (keep c s).port.portErrors = s.port.portErrors ∧ (keep c s).port.overrun = s.port.overrun
      ∧ (keep c s).line = s.line ∧ (keep c s).stock = s.stock ∧ (keep c s).plan = s.plan
      ∧ (keep c s).cut = s.cut ∧ (keep c s).water = s.water ∧ (keep c s).plant = s.plant
      ∧ (keep c s).cost = s.cost := by
  simp [keep]

@[simp] theorem keep_views (c : Cmd) (s : State) :
    (keep c s).cfg = s.cfg ∧ (keep c s).station = s.station ∧ (keep c s).role = s.role
      ∧ (keep c s).now = s.now ∧ (keep c s).joined = s.joined ∧ (keep c s).inService = s.inService
      ∧ (keep c s).bladeType = s.bladeType := by
  simp [State.cfg, State.station, State.role, State.now, State.joined, State.inService,
    State.bladeType]

@[simp] theorem raise_fields (k : FaultKind) (d : Nat) (s : State) :
    (raise k d s).pending = s.pending ∧ (raise k d s).freeCount = s.freeCount
      ∧ (raise k d s).boot.runState = s.boot.runState ∧ (raise k d s).boot.phase = s.boot.phase
      ∧ (raise k d s).boot.shopTime = s.boot.shopTime ∧ (raise k d s).boot.config = s.boot.config
      ∧ (raise k d s).boot.epoch = s.boot.epoch ∧ (raise k d s).boot.advanced = s.boot.advanced
      ∧ (raise k d s).boot.listenOnly = s.boot.listenOnly ∧ (raise k d s).boot.eeprom = s.boot.eeprom
      ∧ (raise k d s).port.outstanding = s.port.outstanding
      ∧ (raise k d s).port.portErrors = s.port.portErrors ∧ (raise k d s).line = s.line
      ∧ (raise k d s).stock = s.stock ∧ (raise k d s).plan = s.plan ∧ (raise k d s).cut = s.cut
      ∧ (raise k d s).water = s.water ∧ (raise k d s).plant = s.plant ∧ (raise k d s).cost = s.cost := by
  unfold raise
  try dsimp only
  (repeat' split) <;> simp

@[simp] theorem raise_views (k : FaultKind) (d : Nat) (s : State) :
    (raise k d s).cfg = s.cfg ∧ (raise k d s).station = s.station ∧ (raise k d s).role = s.role
      ∧ (raise k d s).now = s.now ∧ (raise k d s).joined = s.joined ∧ (raise k d s).inService = s.inService
      ∧ (raise k d s).bladeType = s.bladeType := by
  simp [State.cfg, State.station, State.role, State.now, State.joined, State.inService,
    State.bladeType]

@[simp] theorem queueNotices_fields (w : WaitCause) (es : List QEntry) (s : State) :
    (queueNotices w es s).pending = s.pending ∧ (queueNotices w es s).freeCount = s.freeCount
      ∧ (queueNotices w es s).boot = s.boot ∧ (queueNotices w es s).port = s.port
      ∧ (queueNotices w es s).line.driving = s.line.driving
      ∧ (queueNotices w es s).line.framesSent = s.line.framesSent
      ∧ (queueNotices w es s).line.deferrals = s.line.deferrals
      ∧ (queueNotices w es s).line.receiveErrors = s.line.receiveErrors
      ∧ (queueNotices w es s).line.midFrame = s.line.midFrame
      ∧ (queueNotices w es s).stock = s.stock ∧ (queueNotices w es s).plan = s.plan
      ∧ (queueNotices w es s).cut = s.cut ∧ (queueNotices w es s).water = s.water
      ∧ (queueNotices w es s).plant = s.plant ∧ (queueNotices w es s).cost = s.cost := by
  unfold queueNotices
  try dsimp only
  (repeat' split) <;> simp

@[simp] theorem queueNotices_views (w : WaitCause) (es : List QEntry) (s : State) :
    (queueNotices w es s).cfg = s.cfg ∧ (queueNotices w es s).station = s.station
      ∧ (queueNotices w es s).role = s.role ∧ (queueNotices w es s).now = s.now
      ∧ (queueNotices w es s).joined = s.joined ∧ (queueNotices w es s).inService = s.inService
      ∧ (queueNotices w es s).bladeType = s.bladeType := by
  simp [State.cfg, State.station, State.role, State.now, State.joined, State.inService,
    State.bladeType]

@[simp] theorem leaveQueue_fields (s : State) :
    (leaveQueue s).pending = s.pending ∧ (leaveQueue s).freeCount = s.freeCount
      ∧ (leaveQueue s).boot = s.boot ∧ (leaveQueue s).port = s.port
      ∧ (leaveQueue s).line.framesSent = s.line.framesSent
      ∧ (leaveQueue s).line.deferrals = s.line.deferrals
      ∧ (leaveQueue s).line.receiveErrors = s.line.receiveErrors
      ∧ (leaveQueue s).line.midFrame = s.line.midFrame ∧ (leaveQueue s).stock = s.stock
      ∧ (leaveQueue s).plan = s.plan ∧ (leaveQueue s).cut = s.cut ∧ (leaveQueue s).water = s.water
      ∧ (leaveQueue s).plant = s.plant ∧ (leaveQueue s).cost = s.cost := by
  simp [leaveQueue]

@[simp] theorem leaveQueue_views (s : State) :
    (leaveQueue s).cfg = s.cfg ∧ (leaveQueue s).station = s.station ∧ (leaveQueue s).role = s.role
      ∧ (leaveQueue s).now = s.now ∧ (leaveQueue s).joined = s.joined
      ∧ (leaveQueue s).inService = s.inService ∧ (leaveQueue s).bladeType = s.bladeType := by
  simp [State.cfg, State.station, State.role, State.now, State.joined, State.inService,
    State.bladeType]

@[simp] theorem queueCommand_fields (c : Cmd) (n : Notice) (s : State) :
    (queueCommand c n s).pending = s.pending ∧ (queueCommand c n s).freeCount = s.freeCount
      ∧ (queueCommand c n s).boot = s.boot ∧ (queueCommand c n s).port.portErrors = s.port.portErrors
      ∧ (queueCommand c n s).line.driving = s.line.driving
      ∧ (queueCommand c n s).line.framesSent = s.line.framesSent
      ∧ (queueCommand c n s).line.deferrals = s.line.deferrals
      ∧ (queueCommand c n s).line.receiveErrors = s.line.receiveErrors
      ∧ (queueCommand c n s).line.midFrame = s.line.midFrame
      ∧ (queueCommand c n s).stock = s.stock ∧ (queueCommand c n s).plan = s.plan
      ∧ (queueCommand c n s).cut = s.cut ∧ (queueCommand c n s).water = s.water
      ∧ (queueCommand c n s).plant = s.plant ∧ (queueCommand c n s).cost = s.cost := by
  unfold queueCommand
  try dsimp only
  (repeat' split) <;> simp

@[simp] theorem queueCommand_views (c : Cmd) (n : Notice) (s : State) :
    (queueCommand c n s).cfg = s.cfg ∧ (queueCommand c n s).station = s.station
      ∧ (queueCommand c n s).role = s.role ∧ (queueCommand c n s).now = s.now
      ∧ (queueCommand c n s).joined = s.joined ∧ (queueCommand c n s).inService = s.inService
      ∧ (queueCommand c n s).bladeType = s.bladeType := by
  simp [State.cfg, State.station, State.role, State.now, State.joined, State.inService,
    State.bladeType]

end Sys2Proof.Machine
end

