-- ==== Sys2Proof/Laws/FrameCosting.lean ====
section
/-! SUPPORT. What the costing unit leaves unchanged: for each operation one lemma of the fields it does not
touch, and one of what is read from them. -/

namespace Sys2Proof.Machine

@[simp] theorem createJob_fields (j : Nat) (st : JobState) (s : State) :
    (createJob j st s).pending = s.pending ∧ (createJob j st s).freeCount = s.freeCount
      ∧ (createJob j st s).boot.runState = s.boot.runState ∧ (createJob j st s).boot.phase = s.boot.phase
      ∧ (createJob j st s).boot.shopTime = s.boot.shopTime ∧ (createJob j st s).boot.config = s.boot.config
      ∧ (createJob j st s).boot.epoch = s.boot.epoch ∧ (createJob j st s).boot.advanced = s.boot.advanced
      ∧ (createJob j st s).boot.listenOnly = s.boot.listenOnly
      ∧ (createJob j st s).boot.eeprom = s.boot.eeprom
      ∧ (createJob j st s).port.outstanding = s.port.outstanding
      ∧ (createJob j st s).port.portErrors = s.port.portErrors ∧ (createJob j st s).line = s.line
      ∧ (createJob j st s).stock = s.stock ∧ (createJob j st s).plan = s.plan
      ∧ (createJob j st s).cut = s.cut ∧ (createJob j st s).water = s.water
      ∧ (createJob j st s).plant = s.plant ∧ (createJob j st s).cost.log = s.cost.log
      ∧ (createJob j st s).cost.armed = s.cost.armed := by
  unfold createJob
  try dsimp only
  (repeat' split) <;> simp

@[simp] theorem createJob_views (j : Nat) (st : JobState) (s : State) :
    (createJob j st s).cfg = s.cfg ∧ (createJob j st s).station = s.station
      ∧ (createJob j st s).role = s.role ∧ (createJob j st s).now = s.now
      ∧ (createJob j st s).joined = s.joined ∧ (createJob j st s).inService = s.inService
      ∧ (createJob j st s).bladeType = s.bladeType := by
  simp [State.cfg, State.station, State.role, State.now, State.joined, State.inService,
    State.bladeType]

@[simp] theorem ensureJob_fields (j : Nat) (s : State) :
    (ensureJob j s).pending = s.pending ∧ (ensureJob j s).freeCount = s.freeCount
      ∧ (ensureJob j s).boot.runState = s.boot.runState ∧ (ensureJob j s).boot.phase = s.boot.phase
      ∧ (ensureJob j s).boot.shopTime = s.boot.shopTime ∧ (ensureJob j s).boot.config = s.boot.config
      ∧ (ensureJob j s).boot.epoch = s.boot.epoch ∧ (ensureJob j s).boot.advanced = s.boot.advanced
      ∧ (ensureJob j s).boot.listenOnly = s.boot.listenOnly ∧ (ensureJob j s).boot.eeprom = s.boot.eeprom
      ∧ (ensureJob j s).port.outstanding = s.port.outstanding
      ∧ (ensureJob j s).port.portErrors = s.port.portErrors ∧ (ensureJob j s).line = s.line
      ∧ (ensureJob j s).stock = s.stock ∧ (ensureJob j s).plan = s.plan ∧ (ensureJob j s).cut = s.cut
      ∧ (ensureJob j s).water = s.water ∧ (ensureJob j s).plant = s.plant
      ∧ (ensureJob j s).cost.log = s.cost.log ∧ (ensureJob j s).cost.armed = s.cost.armed := by
  unfold ensureJob
  try dsimp only
  (repeat' split) <;> simp

@[simp] theorem ensureJob_views (j : Nat) (s : State) :
    (ensureJob j s).cfg = s.cfg ∧ (ensureJob j s).station = s.station ∧ (ensureJob j s).role = s.role
      ∧ (ensureJob j s).now = s.now ∧ (ensureJob j s).joined = s.joined
      ∧ (ensureJob j s).inService = s.inService ∧ (ensureJob j s).bladeType = s.bladeType := by
  simp [State.cfg, State.station, State.role, State.now, State.joined, State.inService,
    State.bladeType]

@[simp] theorem addCharge_fields (t : Tally) (s : State) :
    (addCharge t s).pending = s.pending ∧ (addCharge t s).freeCount = s.freeCount
      ∧ (addCharge t s).boot.runState = s.boot.runState ∧ (addCharge t s).boot.phase = s.boot.phase
      ∧ (addCharge t s).boot.shopTime = s.boot.shopTime ∧ (addCharge t s).boot.config = s.boot.config
      ∧ (addCharge t s).boot.epoch = s.boot.epoch ∧ (addCharge t s).boot.advanced = s.boot.advanced
      ∧ (addCharge t s).boot.listenOnly = s.boot.listenOnly ∧ (addCharge t s).boot.eeprom = s.boot.eeprom
      ∧ (addCharge t s).port.outstanding = s.port.outstanding
      ∧ (addCharge t s).port.portErrors = s.port.portErrors ∧ (addCharge t s).line = s.line
      ∧ (addCharge t s).stock = s.stock ∧ (addCharge t s).plan = s.plan ∧ (addCharge t s).cut = s.cut
      ∧ (addCharge t s).water = s.water ∧ (addCharge t s).plant = s.plant
      ∧ (addCharge t s).cost.log = s.cost.log ∧ (addCharge t s).cost.armed = s.cost.armed := by
  simp [addCharge]

@[simp] theorem addCharge_views (t : Tally) (s : State) :
    (addCharge t s).cfg = s.cfg ∧ (addCharge t s).station = s.station ∧ (addCharge t s).role = s.role
      ∧ (addCharge t s).now = s.now ∧ (addCharge t s).joined = s.joined
      ∧ (addCharge t s).inService = s.inService ∧ (addCharge t s).bladeType = s.bladeType := by
  simp [State.cfg, State.station, State.role, State.now, State.joined, State.inService,
    State.bladeType]

@[simp] theorem highWaterAdded_fields (s : State) :
    (highWaterAdded s).pending = s.pending ∧ (highWaterAdded s).freeCount = s.freeCount
      ∧ (highWaterAdded s).boot = s.boot ∧ (highWaterAdded s).port.outstanding = s.port.outstanding
      ∧ (highWaterAdded s).port.portErrors = s.port.portErrors ∧ (highWaterAdded s).line = s.line
      ∧ (highWaterAdded s).stock = s.stock ∧ (highWaterAdded s).plan = s.plan
      ∧ (highWaterAdded s).cut = s.cut ∧ (highWaterAdded s).water = s.water
      ∧ (highWaterAdded s).plant = s.plant ∧ (highWaterAdded s).cost.jobs = s.cost.jobs
      ∧ (highWaterAdded s).cost.log = s.cost.log := by
  unfold highWaterAdded
  try dsimp only
  (repeat' split) <;> simp

@[simp] theorem highWaterAdded_views (s : State) :
    (highWaterAdded s).cfg = s.cfg ∧ (highWaterAdded s).station = s.station
      ∧ (highWaterAdded s).role = s.role ∧ (highWaterAdded s).now = s.now
      ∧ (highWaterAdded s).joined = s.joined ∧ (highWaterAdded s).inService = s.inService
      ∧ (highWaterAdded s).bladeType = s.bladeType ∧ (highWaterAdded s).jobEntry = s.jobEntry := by
  simp [State.cfg, State.station, State.role, State.now, State.joined, State.inService,
    State.bladeType, State.jobEntry, funext_iff]

@[simp] theorem offerLog_fields (r : LogRecord) (s : State) :
    (offerLog r s).pending = s.pending ∧ (offerLog r s).freeCount = s.freeCount
      ∧ (offerLog r s).boot.runState = s.boot.runState ∧ (offerLog r s).boot.phase = s.boot.phase
      ∧ (offerLog r s).boot.shopTime = s.boot.shopTime ∧ (offerLog r s).boot.config = s.boot.config
      ∧ (offerLog r s).boot.epoch = s.boot.epoch ∧ (offerLog r s).boot.advanced = s.boot.advanced
      ∧ (offerLog r s).boot.listenOnly = s.boot.listenOnly ∧ (offerLog r s).boot.eeprom = s.boot.eeprom
      ∧ (offerLog r s).port.outstanding = s.port.outstanding
      ∧ (offerLog r s).port.portErrors = s.port.portErrors ∧ (offerLog r s).line = s.line
      ∧ (offerLog r s).stock = s.stock ∧ (offerLog r s).plan = s.plan ∧ (offerLog r s).cut = s.cut
      ∧ (offerLog r s).water = s.water ∧ (offerLog r s).plant = s.plant := by
  unfold offerLog
  try dsimp only
  (repeat' split) <;> simp

@[simp] theorem offerLog_views (r : LogRecord) (s : State) :
    (offerLog r s).cfg = s.cfg ∧ (offerLog r s).station = s.station ∧ (offerLog r s).role = s.role
      ∧ (offerLog r s).now = s.now ∧ (offerLog r s).joined = s.joined
      ∧ (offerLog r s).inService = s.inService ∧ (offerLog r s).bladeType = s.bladeType := by
  simp [State.cfg, State.station, State.role, State.now, State.joined, State.inService,
    State.bladeType]

@[simp] theorem ownCharge_fields (t : Tally) (k : LogKind) (i : SlabId) (n : Nat) (s : State) :
    (ownCharge t k i n s).pending = s.pending ∧ (ownCharge t k i n s).freeCount = s.freeCount
      ∧ (ownCharge t k i n s).boot.runState = s.boot.runState
      ∧ (ownCharge t k i n s).boot.phase = s.boot.phase
      ∧ (ownCharge t k i n s).boot.shopTime = s.boot.shopTime
      ∧ (ownCharge t k i n s).boot.config = s.boot.config ∧ (ownCharge t k i n s).boot.epoch = s.boot.epoch
      ∧ (ownCharge t k i n s).boot.advanced = s.boot.advanced
      ∧ (ownCharge t k i n s).boot.listenOnly = s.boot.listenOnly
      ∧ (ownCharge t k i n s).boot.eeprom = s.boot.eeprom
      ∧ (ownCharge t k i n s).port.outstanding = s.port.outstanding
      ∧ (ownCharge t k i n s).port.portErrors = s.port.portErrors ∧ (ownCharge t k i n s).line = s.line
      ∧ (ownCharge t k i n s).stock = s.stock ∧ (ownCharge t k i n s).plan = s.plan
      ∧ (ownCharge t k i n s).cut = s.cut ∧ (ownCharge t k i n s).water = s.water
      ∧ (ownCharge t k i n s).plant = s.plant := by
  simp [ownCharge]

@[simp] theorem ownCharge_views (t : Tally) (k : LogKind) (i : SlabId) (n : Nat) (s : State) :
    (ownCharge t k i n s).cfg = s.cfg ∧ (ownCharge t k i n s).station = s.station
      ∧ (ownCharge t k i n s).role = s.role ∧ (ownCharge t k i n s).now = s.now
      ∧ (ownCharge t k i n s).joined = s.joined ∧ (ownCharge t k i n s).inService = s.inService
      ∧ (ownCharge t k i n s).bladeType = s.bladeType := by
  simp [State.cfg, State.station, State.role, State.now, State.joined, State.inService,
    State.bladeType]

@[simp] theorem applyJobState_fields (j : Nat) (st : JobState) (s : State) :
    (applyJobState j st s).pending = s.pending ∧ (applyJobState j st s).freeCount = s.freeCount
      ∧ (applyJobState j st s).boot.runState = s.boot.runState
      ∧ (applyJobState j st s).boot.phase = s.boot.phase
      ∧ (applyJobState j st s).boot.shopTime = s.boot.shopTime
      ∧ (applyJobState j st s).boot.config = s.boot.config
      ∧ (applyJobState j st s).boot.epoch = s.boot.epoch
      ∧ (applyJobState j st s).boot.advanced = s.boot.advanced
      ∧ (applyJobState j st s).boot.listenOnly = s.boot.listenOnly
      ∧ (applyJobState j st s).boot.eeprom = s.boot.eeprom
      ∧ (applyJobState j st s).port.outstanding = s.port.outstanding
      ∧ (applyJobState j st s).port.portErrors = s.port.portErrors ∧ (applyJobState j st s).line = s.line
      ∧ (applyJobState j st s).stock = s.stock ∧ (applyJobState j st s).plan = s.plan
      ∧ (applyJobState j st s).cut = s.cut ∧ (applyJobState j st s).water = s.water
      ∧ (applyJobState j st s).plant = s.plant ∧ (applyJobState j st s).cost.log = s.cost.log
      ∧ (applyJobState j st s).cost.armed = s.cost.armed := by
  unfold applyJobState
  try dsimp only
  (repeat' split) <;> simp

@[simp] theorem applyJobState_views (j : Nat) (st : JobState) (s : State) :
    (applyJobState j st s).cfg = s.cfg ∧ (applyJobState j st s).station = s.station
      ∧ (applyJobState j st s).role = s.role ∧ (applyJobState j st s).now = s.now
      ∧ (applyJobState j st s).joined = s.joined ∧ (applyJobState j st s).inService = s.inService
      ∧ (applyJobState j st s).bladeType = s.bladeType := by
  simp [State.cfg, State.station, State.role, State.now, State.joined, State.inService,
    State.bladeType]

@[simp] theorem applyJobOpen_fields (j : Nat) (c : Option Cmd) (s : State) :
    (applyJobOpen j c s).pending = s.pending ∧ (applyJobOpen j c s).freeCount = s.freeCount
      ∧ (applyJobOpen j c s).boot.runState = s.boot.runState
      ∧ (applyJobOpen j c s).boot.phase = s.boot.phase
      ∧ (applyJobOpen j c s).boot.shopTime = s.boot.shopTime
      ∧ (applyJobOpen j c s).boot.config = s.boot.config ∧ (applyJobOpen j c s).boot.epoch = s.boot.epoch
      ∧ (applyJobOpen j c s).boot.advanced = s.boot.advanced
      ∧ (applyJobOpen j c s).boot.listenOnly = s.boot.listenOnly
      ∧ (applyJobOpen j c s).boot.eeprom = s.boot.eeprom
      ∧ (applyJobOpen j c s).port.portErrors = s.port.portErrors ∧ (applyJobOpen j c s).line = s.line
      ∧ (applyJobOpen j c s).stock = s.stock ∧ (applyJobOpen j c s).plan = s.plan
      ∧ (applyJobOpen j c s).cut = s.cut ∧ (applyJobOpen j c s).water = s.water
      ∧ (applyJobOpen j c s).plant = s.plant ∧ (applyJobOpen j c s).cost.log = s.cost.log
      ∧ (applyJobOpen j c s).cost.armed = s.cost.armed := by
  unfold applyJobOpen
  try dsimp only
  (repeat' split) <;> simp

@[simp] theorem applyJobOpen_views (j : Nat) (c : Option Cmd) (s : State) :
    (applyJobOpen j c s).cfg = s.cfg ∧ (applyJobOpen j c s).station = s.station
      ∧ (applyJobOpen j c s).role = s.role ∧ (applyJobOpen j c s).now = s.now
      ∧ (applyJobOpen j c s).joined = s.joined ∧ (applyJobOpen j c s).inService = s.inService
      ∧ (applyJobOpen j c s).bladeType = s.bladeType := by
  simp [State.cfg, State.station, State.role, State.now, State.joined, State.inService,
    State.bladeType]

@[simp] theorem applyJobClose_fields (j : Nat) (c : Option Cmd) (s : State) :
    (applyJobClose j c s).pending = s.pending ∧ (applyJobClose j c s).freeCount = s.freeCount
      ∧ (applyJobClose j c s).boot.runState = s.boot.runState
      ∧ (applyJobClose j c s).boot.phase = s.boot.phase
      ∧ (applyJobClose j c s).boot.shopTime = s.boot.shopTime
      ∧ (applyJobClose j c s).boot.config = s.boot.config ∧ (applyJobClose j c s).boot.epoch = s.boot.epoch
      ∧ (applyJobClose j c s).boot.advanced = s.boot.advanced
      ∧ (applyJobClose j c s).boot.listenOnly = s.boot.listenOnly
      ∧ (applyJobClose j c s).boot.eeprom = s.boot.eeprom
      ∧ (applyJobClose j c s).port.portErrors = s.port.portErrors ∧ (applyJobClose j c s).line = s.line
      ∧ (applyJobClose j c s).stock = s.stock ∧ (applyJobClose j c s).plan = s.plan
      ∧ (applyJobClose j c s).cut = s.cut ∧ (applyJobClose j c s).water = s.water
      ∧ (applyJobClose j c s).plant = s.plant ∧ (applyJobClose j c s).cost.log = s.cost.log
      ∧ (applyJobClose j c s).cost.armed = s.cost.armed := by
  simp [applyJobClose]

@[simp] theorem applyJobClose_views (j : Nat) (c : Option Cmd) (s : State) :
    (applyJobClose j c s).cfg = s.cfg ∧ (applyJobClose j c s).station = s.station
      ∧ (applyJobClose j c s).role = s.role ∧ (applyJobClose j c s).now = s.now
      ∧ (applyJobClose j c s).joined = s.joined ∧ (applyJobClose j c s).inService = s.inService
      ∧ (applyJobClose j c s).bladeType = s.bladeType := by
  simp [State.cfg, State.station, State.role, State.now, State.joined, State.inService,
    State.bladeType]

@[simp] theorem applyTally_fields (n : Nat) (t : Tally) (s : State) :
    (applyTally n t s).pending = s.pending ∧ (applyTally n t s).freeCount = s.freeCount
      ∧ (applyTally n t s).boot.runState = s.boot.runState ∧ (applyTally n t s).boot.phase = s.boot.phase
      ∧ (applyTally n t s).boot.shopTime = s.boot.shopTime ∧ (applyTally n t s).boot.config = s.boot.config
      ∧ (applyTally n t s).boot.epoch = s.boot.epoch ∧ (applyTally n t s).boot.advanced = s.boot.advanced
      ∧ (applyTally n t s).boot.listenOnly = s.boot.listenOnly
      ∧ (applyTally n t s).boot.eeprom = s.boot.eeprom
      ∧ (applyTally n t s).port.outstanding = s.port.outstanding
      ∧ (applyTally n t s).port.portErrors = s.port.portErrors ∧ (applyTally n t s).line = s.line
      ∧ (applyTally n t s).stock = s.stock ∧ (applyTally n t s).plan = s.plan
      ∧ (applyTally n t s).cut = s.cut ∧ (applyTally n t s).water = s.water
      ∧ (applyTally n t s).plant = s.plant ∧ (applyTally n t s).cost.log = s.cost.log
      ∧ (applyTally n t s).cost.armed = s.cost.armed := by
  unfold applyTally
  try dsimp only
  (repeat' split) <;> simp

@[simp] theorem applyTally_views (n : Nat) (t : Tally) (s : State) :
    (applyTally n t s).cfg = s.cfg ∧ (applyTally n t s).station = s.station
      ∧ (applyTally n t s).role = s.role ∧ (applyTally n t s).now = s.now
      ∧ (applyTally n t s).joined = s.joined ∧ (applyTally n t s).inService = s.inService
      ∧ (applyTally n t s).bladeType = s.bladeType := by
  simp [State.cfg, State.station, State.role, State.now, State.joined, State.inService,
    State.bladeType]

@[simp] theorem readLog_fields (n : Nat) (s : State) :
    (readLog n s).pending = s.pending ∧ (readLog n s).freeCount = s.freeCount ∧ (readLog n s).boot = s.boot
      ∧ (readLog n s).port = s.port ∧ (readLog n s).line = s.line ∧ (readLog n s).stock = s.stock
      ∧ (readLog n s).plan = s.plan ∧ (readLog n s).cut = s.cut ∧ (readLog n s).water = s.water
      ∧ (readLog n s).plant = s.plant ∧ (readLog n s).cost.jobs = s.cost.jobs := by
  simp [readLog]

@[simp] theorem readLog_views (n : Nat) (s : State) :
    (readLog n s).cfg = s.cfg ∧ (readLog n s).station = s.station ∧ (readLog n s).role = s.role
      ∧ (readLog n s).now = s.now ∧ (readLog n s).joined = s.joined ∧ (readLog n s).inService = s.inService
      ∧ (readLog n s).bladeType = s.bladeType ∧ (readLog n s).jobEntry = s.jobEntry := by
  simp [State.cfg, State.station, State.role, State.now, State.joined, State.inService,
    State.bladeType, State.jobEntry, funext_iff]

@[simp] theorem rearm_fields (s : State) :
    (rearm s).pending = s.pending ∧ (rearm s).freeCount = s.freeCount ∧ (rearm s).boot = s.boot
      ∧ (rearm s).port.outstanding = s.port.outstanding ∧ (rearm s).port.portErrors = s.port.portErrors
      ∧ (rearm s).line = s.line ∧ (rearm s).stock = s.stock ∧ (rearm s).plan = s.plan
      ∧ (rearm s).cut = s.cut ∧ (rearm s).water = s.water ∧ (rearm s).plant = s.plant
      ∧ (rearm s).cost.jobs = s.cost.jobs ∧ (rearm s).cost.log = s.cost.log := by
  unfold rearm
  try dsimp only
  (repeat' split) <;> simp

@[simp] theorem rearm_views (s : State) :
    (rearm s).cfg = s.cfg ∧ (rearm s).station = s.station ∧ (rearm s).role = s.role ∧ (rearm s).now = s.now
      ∧ (rearm s).joined = s.joined ∧ (rearm s).inService = s.inService ∧ (rearm s).bladeType = s.bladeType
      ∧ (rearm s).jobEntry = s.jobEntry := by
  simp [State.cfg, State.station, State.role, State.now, State.joined, State.inService,
    State.bladeType, State.jobEntry, funext_iff]

end Sys2Proof.Machine
end

