-- ==== Sys2Proof/Laws/FrameCutUnit.lean ====
section
/-! SUPPORT. What the cut unit leaves unchanged: for each operation one lemma of the fields it does not
touch, and one of what is read from them. -/

namespace Sys2Proof.Machine

@[simp] theorem evaluateMark_fields (s : State) :
    (evaluateMark s).pending = s.pending ∧ (evaluateMark s).freeCount = s.freeCount
      ∧ (evaluateMark s).boot = s.boot ∧ (evaluateMark s).port.outstanding = s.port.outstanding
      ∧ (evaluateMark s).port.portErrors = s.port.portErrors ∧ (evaluateMark s).line = s.line
      ∧ (evaluateMark s).stock = s.stock ∧ (evaluateMark s).plan = s.plan
      ∧ (evaluateMark s).cut.state = s.cut.state ∧ (evaluateMark s).cut.held = s.cut.held
      ∧ (evaluateMark s).cut.segment = s.cut.segment ∧ (evaluateMark s).cut.blade = s.cut.blade
      ∧ (evaluateMark s).cut.parked = s.cut.parked ∧ (evaluateMark s).cut.priming = s.cut.priming
      ∧ (evaluateMark s).cut.splitLeft = s.cut.splitLeft ∧ (evaluateMark s).water = s.water
      ∧ (evaluateMark s).plant = s.plant ∧ (evaluateMark s).cost = s.cost := by
  unfold evaluateMark
  try dsimp only
  (repeat' split) <;> simp

@[simp] theorem evaluateMark_views (s : State) :
    (evaluateMark s).cfg = s.cfg ∧ (evaluateMark s).station = s.station ∧ (evaluateMark s).role = s.role
      ∧ (evaluateMark s).now = s.now ∧ (evaluateMark s).joined = s.joined
      ∧ (evaluateMark s).inService = s.inService ∧ (evaluateMark s).bladeType = s.bladeType
      ∧ (evaluateMark s).ownDraw = s.ownDraw ∧ (evaluateMark s).ownGrant = s.ownGrant
      ∧ (evaluateMark s).slab = s.slab ∧ (evaluateMark s).jobEntry = s.jobEntry := by
  simp [State.cfg, State.station, State.role, State.now, State.joined, State.inService,
    State.bladeType, State.ownDraw, State.ownGrant, State.slab, State.jobEntry, funext_iff]

@[simp] theorem setMark_fields (s : State) :
    (setMark s).pending = s.pending ∧ (setMark s).freeCount = s.freeCount ∧ (setMark s).boot = s.boot
      ∧ (setMark s).port.outstanding = s.port.outstanding ∧ (setMark s).port.portErrors = s.port.portErrors
      ∧ (setMark s).line = s.line ∧ (setMark s).stock = s.stock ∧ (setMark s).plan = s.plan
      ∧ (setMark s).cut.state = s.cut.state ∧ (setMark s).cut.held = s.cut.held
      ∧ (setMark s).cut.segment = s.cut.segment ∧ (setMark s).cut.blade = s.cut.blade
      ∧ (setMark s).cut.parked = s.cut.parked ∧ (setMark s).cut.priming = s.cut.priming
      ∧ (setMark s).cut.splitLeft = s.cut.splitLeft ∧ (setMark s).water = s.water
      ∧ (setMark s).plant = s.plant ∧ (setMark s).cost = s.cost := by
  simp [setMark]

@[simp] theorem setMark_views (s : State) :
    (setMark s).cfg = s.cfg ∧ (setMark s).station = s.station ∧ (setMark s).role = s.role
      ∧ (setMark s).now = s.now ∧ (setMark s).joined = s.joined ∧ (setMark s).inService = s.inService
      ∧ (setMark s).bladeType = s.bladeType ∧ (setMark s).ownDraw = s.ownDraw
      ∧ (setMark s).ownGrant = s.ownGrant ∧ (setMark s).slab = s.slab ∧ (setMark s).jobEntry = s.jobEntry := by
  simp [State.cfg, State.station, State.role, State.now, State.joined, State.inService,
    State.bladeType, State.ownDraw, State.ownGrant, State.slab, State.jobEntry, funext_iff]

@[simp] theorem toCut_fields (c : CutState) (s : State) :
    (toCut c s).pending = s.pending ∧ (toCut c s).freeCount = s.freeCount ∧ (toCut c s).boot = s.boot
      ∧ (toCut c s).port = s.port ∧ (toCut c s).line = s.line ∧ (toCut c s).stock = s.stock
      ∧ (toCut c s).cut.held = s.cut.held ∧ (toCut c s).cut.blade = s.cut.blade
      ∧ (toCut c s).cut.parked = s.cut.parked ∧ (toCut c s).cut.priming = s.cut.priming
      ∧ (toCut c s).cut.splitLeft = s.cut.splitLeft ∧ (toCut c s).water = s.water
      ∧ (toCut c s).plant = s.plant ∧ (toCut c s).cost = s.cost := by simp [toCut]

@[simp] theorem toCut_views (c : CutState) (s : State) :
    (toCut c s).cfg = s.cfg ∧ (toCut c s).station = s.station ∧ (toCut c s).role = s.role
      ∧ (toCut c s).now = s.now ∧ (toCut c s).joined = s.joined ∧ (toCut c s).inService = s.inService
      ∧ (toCut c s).bladeType = s.bladeType ∧ (toCut c s).ownDraw = s.ownDraw
      ∧ (toCut c s).ownGrant = s.ownGrant ∧ (toCut c s).slab = s.slab ∧ (toCut c s).jobEntry = s.jobEntry := by
  simp [State.cfg, State.station, State.role, State.now, State.joined, State.inService,
    State.bladeType, State.ownDraw, State.ownGrant, State.slab, State.jobEntry, funext_iff]

@[simp] theorem toEmpty_fields (s : State) :
    (toEmpty s).pending = s.pending ∧ (toEmpty s).freeCount = s.freeCount ∧ (toEmpty s).boot = s.boot
      ∧ (toEmpty s).port = s.port ∧ (toEmpty s).line = s.line ∧ (toEmpty s).stock = s.stock
      ∧ (toEmpty s).cut.blade = s.cut.blade ∧ (toEmpty s).cut.parked = s.cut.parked
      ∧ (toEmpty s).cut.priming = s.cut.priming ∧ (toEmpty s).cut.splitLeft = s.cut.splitLeft
      ∧ (toEmpty s).water = s.water ∧ (toEmpty s).plant = s.plant ∧ (toEmpty s).cost = s.cost := by simp [toEmpty]

@[simp] theorem toEmpty_views (s : State) :
    (toEmpty s).cfg = s.cfg ∧ (toEmpty s).station = s.station ∧ (toEmpty s).role = s.role
      ∧ (toEmpty s).now = s.now ∧ (toEmpty s).joined = s.joined ∧ (toEmpty s).inService = s.inService
      ∧ (toEmpty s).bladeType = s.bladeType ∧ (toEmpty s).ownDraw = s.ownDraw
      ∧ (toEmpty s).ownGrant = s.ownGrant ∧ (toEmpty s).slab = s.slab ∧ (toEmpty s).jobEntry = s.jobEntry := by
  simp [State.cfg, State.station, State.role, State.now, State.joined, State.inService,
    State.bladeType, State.ownDraw, State.ownGrant, State.slab, State.jobEntry, funext_iff]

@[simp] theorem stopWindow_fields (s : State) :
    (stopWindow s).pending = s.pending ∧ (stopWindow s).freeCount = s.freeCount
      ∧ (stopWindow s).boot = s.boot ∧ (stopWindow s).port = s.port ∧ (stopWindow s).line = s.line
      ∧ (stopWindow s).stock.table = s.stock.table ∧ (stopWindow s).stock.seqNext = s.stock.seqNext
      ∧ (stopWindow s).stock.answerBatch = s.stock.answerBatch
      ∧ (stopWindow s).stock.answerTouched = s.stock.answerTouched ∧ (stopWindow s).plan = s.plan
      ∧ (stopWindow s).cut = s.cut ∧ (stopWindow s).water = s.water ∧ (stopWindow s).plant = s.plant
      ∧ (stopWindow s).cost = s.cost := by simp [stopWindow]

@[simp] theorem stopWindow_views (s : State) :
    (stopWindow s).cfg = s.cfg ∧ (stopWindow s).station = s.station ∧ (stopWindow s).role = s.role
      ∧ (stopWindow s).now = s.now ∧ (stopWindow s).joined = s.joined
      ∧ (stopWindow s).inService = s.inService ∧ (stopWindow s).bladeType = s.bladeType
      ∧ (stopWindow s).ownDraw = s.ownDraw ∧ (stopWindow s).ownGrant = s.ownGrant
      ∧ (stopWindow s).slab = s.slab ∧ (stopWindow s).jobEntry = s.jobEntry := by
  simp [State.cfg, State.station, State.role, State.now, State.joined, State.inService,
    State.bladeType, State.ownDraw, State.ownGrant, State.slab, State.jobEntry, funext_iff]

@[simp] theorem grantCut_fields (c : Option Cmd) (s : State) :
    (grantCut c s).pending = s.pending ∧ (grantCut c s).freeCount = s.freeCount
      ∧ (grantCut c s).boot = s.boot ∧ (grantCut c s).port.portErrors = s.port.portErrors
      ∧ (grantCut c s).line = s.line ∧ (grantCut c s).stock = s.stock ∧ (grantCut c s).cut.held = s.cut.held
      ∧ (grantCut c s).cut.blade = s.cut.blade ∧ (grantCut c s).cut.parked = s.cut.parked
      ∧ (grantCut c s).cut.priming = s.cut.priming ∧ (grantCut c s).cut.splitLeft = s.cut.splitLeft
      ∧ (grantCut c s).water = s.water ∧ (grantCut c s).plant = s.plant ∧ (grantCut c s).cost = s.cost := by
  unfold grantCut
  (repeat' split) <;> simp [openSegment]

@[simp] theorem grantCut_views (c : Option Cmd) (s : State) :
    (grantCut c s).cfg = s.cfg ∧ (grantCut c s).station = s.station ∧ (grantCut c s).role = s.role
      ∧ (grantCut c s).now = s.now ∧ (grantCut c s).joined = s.joined
      ∧ (grantCut c s).inService = s.inService ∧ (grantCut c s).bladeType = s.bladeType
      ∧ (grantCut c s).ownDraw = s.ownDraw ∧ (grantCut c s).ownGrant = s.ownGrant
      ∧ (grantCut c s).slab = s.slab ∧ (grantCut c s).jobEntry = s.jobEntry := by
  simp [State.cfg, State.station, State.role, State.now, State.joined, State.inService,
    State.bladeType, State.ownDraw, State.ownGrant, State.slab, State.jobEntry, funext_iff]

end Sys2Proof.Machine
end

