-- ==== Sys2Proof/Laws/FrameWaterUnit.lean ====
section
/-! SUPPORT. What the water unit leaves unchanged: for each operation one lemma of the fields it does not
touch, and one of what is read from them. -/

namespace Sys2Proof.Machine

@[simp] theorem absorbDraw_fields (p : DrawPurpose) (c : Option Cmd) (l : Line) :
    (absorbDraw p c l).driving = l.driving ∧ (absorbDraw p c l).framesSent = l.framesSent
      ∧ (absorbDraw p c l).deferrals = l.deferrals ∧ (absorbDraw p c l).receiveErrors = l.receiveErrors
      ∧ (absorbDraw p c l).midFrame = l.midFrame
      ∧ (absorbDraw p c l).access = l.access := by
  unfold absorbDraw
  split <;> simp

@[simp] theorem fit_fields (s : State) :
    (fit s).pending = s.pending ∧ (fit s).freeCount = s.freeCount ∧ (fit s).boot = s.boot
      ∧ (fit s).port = s.port ∧ (fit s).line = s.line ∧ (fit s).stock = s.stock ∧ (fit s).plan = s.plan
      ∧ (fit s).cut = s.cut ∧ (fit s).water.capacity = s.water.capacity ∧ (fit s).water.stop = s.water.stop
      ∧ (fit s).water.stale = s.water.stale ∧ (fit s).water.fresh = s.water.fresh
      ∧ (fit s).water.plantHeard = s.water.plantHeard ∧ (fit s).water.silent = s.water.silent
      ∧ (fit s).water.lastPlant = s.water.lastPlant ∧ (fit s).water.ownRequest = s.water.ownRequest
      ∧ (fit s).water.refresh = s.water.refresh ∧ (fit s).water.overdraw = s.water.overdraw
      ∧ (fit s).plant = s.plant ∧ (fit s).cost = s.cost := by
  simp [fit]

@[simp] theorem fit_views (s : State) :
    (fit s).cfg = s.cfg ∧ (fit s).station = s.station ∧ (fit s).role = s.role ∧ (fit s).now = s.now
      ∧ (fit s).joined = s.joined ∧ (fit s).inService = s.inService ∧ (fit s).bladeType = s.bladeType
      ∧ (fit s).slab = s.slab ∧ (fit s).jobEntry = s.jobEntry := by
  simp [State.cfg, State.station, State.role, State.now, State.joined, State.inService,
    State.bladeType, State.slab, State.jobEntry, funext_iff]

@[simp] theorem queueDraw_fields (p : DrawPurpose) (c : Option Cmd) (s : State) :
    (queueDraw p c s).pending = s.pending ∧ (queueDraw p c s).freeCount = s.freeCount
      ∧ (queueDraw p c s).boot = s.boot ∧ (queueDraw p c s).port = s.port
      ∧ (queueDraw p c s).line.driving = s.line.driving
      ∧ (queueDraw p c s).line.framesSent = s.line.framesSent
      ∧ (queueDraw p c s).line.deferrals = s.line.deferrals
      ∧ (queueDraw p c s).line.receiveErrors = s.line.receiveErrors
      ∧ (queueDraw p c s).line.midFrame = s.line.midFrame ∧ (queueDraw p c s).stock = s.stock
      ∧ (queueDraw p c s).plan = s.plan ∧ (queueDraw p c s).cut = s.cut ∧ (queueDraw p c s).water = s.water
      ∧ (queueDraw p c s).plant = s.plant ∧ (queueDraw p c s).cost = s.cost := by
  unfold queueDraw
  try dsimp only
  (repeat' split) <;> simp

@[simp] theorem queueDraw_views (p : DrawPurpose) (c : Option Cmd) (s : State) :
    (queueDraw p c s).cfg = s.cfg ∧ (queueDraw p c s).station = s.station ∧ (queueDraw p c s).role = s.role
      ∧ (queueDraw p c s).now = s.now ∧ (queueDraw p c s).joined = s.joined
      ∧ (queueDraw p c s).inService = s.inService ∧ (queueDraw p c s).bladeType = s.bladeType
      ∧ (queueDraw p c s).ownDraw = s.ownDraw ∧ (queueDraw p c s).ownGrant = s.ownGrant
      ∧ (queueDraw p c s).slab = s.slab ∧ (queueDraw p c s).jobEntry = s.jobEntry := by
  simp [State.cfg, State.station, State.role, State.now, State.joined, State.inService,
    State.bladeType, State.ownDraw, State.ownGrant, State.slab, State.jobEntry, funext_iff]

@[simp] theorem reworkRequest_fields (c : Option Cmd) (s : State) :
    (reworkRequest c s).pending = s.pending ∧ (reworkRequest c s).freeCount = s.freeCount
      ∧ (reworkRequest c s).boot = s.boot ∧ (reworkRequest c s).port = s.port
      ∧ (reworkRequest c s).line.driving = s.line.driving
      ∧ (reworkRequest c s).line.framesSent = s.line.framesSent
      ∧ (reworkRequest c s).line.deferrals = s.line.deferrals
      ∧ (reworkRequest c s).line.receiveErrors = s.line.receiveErrors
      ∧ (reworkRequest c s).line.midFrame = s.line.midFrame ∧ (reworkRequest c s).stock = s.stock
      ∧ (reworkRequest c s).plan = s.plan ∧ (reworkRequest c s).cut = s.cut
      ∧ (reworkRequest c s).water.capacity = s.water.capacity
      ∧ (reworkRequest c s).water.stop = s.water.stop ∧ (reworkRequest c s).water.stale = s.water.stale
      ∧ (reworkRequest c s).water.fresh = s.water.fresh
      ∧ (reworkRequest c s).water.plantHeard = s.water.plantHeard
      ∧ (reworkRequest c s).water.silent = s.water.silent
      ∧ (reworkRequest c s).water.lastPlant = s.water.lastPlant
      ∧ (reworkRequest c s).water.draws = s.water.draws
      ∧ (reworkRequest c s).water.refresh = s.water.refresh
      ∧ (reworkRequest c s).water.overdraw = s.water.overdraw ∧ (reworkRequest c s).plant = s.plant
      ∧ (reworkRequest c s).cost = s.cost := by
  unfold reworkRequest
  try dsimp only
  (repeat' split) <;> simp

@[simp] theorem reworkRequest_views (c : Option Cmd) (s : State) :
    (reworkRequest c s).cfg = s.cfg ∧ (reworkRequest c s).station = s.station
      ∧ (reworkRequest c s).role = s.role ∧ (reworkRequest c s).now = s.now
      ∧ (reworkRequest c s).joined = s.joined ∧ (reworkRequest c s).inService = s.inService
      ∧ (reworkRequest c s).bladeType = s.bladeType ∧ (reworkRequest c s).ownDraw = s.ownDraw
      ∧ (reworkRequest c s).ownGrant = s.ownGrant ∧ (reworkRequest c s).slab = s.slab
      ∧ (reworkRequest c s).jobEntry = s.jobEntry := by
  simp [State.cfg, State.station, State.role, State.now, State.joined, State.inService,
    State.bladeType, State.ownDraw, State.ownGrant, State.slab, State.jobEntry, funext_iff]

@[simp] theorem evaluateOverdraw_fields (n : Nat) (s : State) :
    (evaluateOverdraw n s).pending = s.pending ∧ (evaluateOverdraw n s).freeCount = s.freeCount
      ∧ (evaluateOverdraw n s).boot.runState = s.boot.runState
      ∧ (evaluateOverdraw n s).boot.phase = s.boot.phase
      ∧ (evaluateOverdraw n s).boot.shopTime = s.boot.shopTime
      ∧ (evaluateOverdraw n s).boot.config = s.boot.config
      ∧ (evaluateOverdraw n s).boot.epoch = s.boot.epoch
      ∧ (evaluateOverdraw n s).boot.advanced = s.boot.advanced
      ∧ (evaluateOverdraw n s).boot.listenOnly = s.boot.listenOnly
      ∧ (evaluateOverdraw n s).boot.eeprom = s.boot.eeprom
      ∧ (evaluateOverdraw n s).port.outstanding = s.port.outstanding
      ∧ (evaluateOverdraw n s).port.portErrors = s.port.portErrors ∧ (evaluateOverdraw n s).line = s.line
      ∧ (evaluateOverdraw n s).stock = s.stock ∧ (evaluateOverdraw n s).plan = s.plan
      ∧ (evaluateOverdraw n s).cut = s.cut ∧ (evaluateOverdraw n s).water.capacity = s.water.capacity
      ∧ (evaluateOverdraw n s).water.stop = s.water.stop
      ∧ (evaluateOverdraw n s).water.stale = s.water.stale
      ∧ (evaluateOverdraw n s).water.fresh = s.water.fresh
      ∧ (evaluateOverdraw n s).water.plantHeard = s.water.plantHeard
      ∧ (evaluateOverdraw n s).water.silent = s.water.silent
      ∧ (evaluateOverdraw n s).water.lastPlant = s.water.lastPlant
      ∧ (evaluateOverdraw n s).water.draws = s.water.draws
      ∧ (evaluateOverdraw n s).water.ownRequest = s.water.ownRequest
      ∧ (evaluateOverdraw n s).water.refresh = s.water.refresh ∧ (evaluateOverdraw n s).plant = s.plant
      ∧ (evaluateOverdraw n s).cost = s.cost := by
  unfold evaluateOverdraw
  try dsimp only
  (repeat' split) <;> simp

@[simp] theorem evaluateOverdraw_views (n : Nat) (s : State) :
    (evaluateOverdraw n s).cfg = s.cfg ∧ (evaluateOverdraw n s).station = s.station
      ∧ (evaluateOverdraw n s).role = s.role ∧ (evaluateOverdraw n s).now = s.now
      ∧ (evaluateOverdraw n s).joined = s.joined ∧ (evaluateOverdraw n s).inService = s.inService
      ∧ (evaluateOverdraw n s).bladeType = s.bladeType ∧ (evaluateOverdraw n s).ownDraw = s.ownDraw
      ∧ (evaluateOverdraw n s).ownGrant = s.ownGrant ∧ (evaluateOverdraw n s).slab = s.slab
      ∧ (evaluateOverdraw n s).jobEntry = s.jobEntry := by
  simp [State.cfg, State.station, State.role, State.now, State.joined, State.inService,
    State.bladeType, State.ownDraw, State.ownGrant, State.slab, State.jobEntry, funext_iff]

@[simp] theorem signalWater_fields (n : Nat) (s : State) :
    (signalWater n s).pending = s.pending ∧ (signalWater n s).freeCount = s.freeCount
      ∧ (signalWater n s).boot = s.boot ∧ (signalWater n s).port.outstanding = s.port.outstanding
      ∧ (signalWater n s).port.portErrors = s.port.portErrors ∧ (signalWater n s).line = s.line
      ∧ (signalWater n s).stock = s.stock ∧ (signalWater n s).plan = s.plan ∧ (signalWater n s).cut = s.cut
      ∧ (signalWater n s).water = s.water ∧ (signalWater n s).plant = s.plant
      ∧ (signalWater n s).cost = s.cost := by
  unfold signalWater
  try dsimp only
  (repeat' split) <;> simp

@[simp] theorem signalWater_views (n : Nat) (s : State) :
    (signalWater n s).cfg = s.cfg ∧ (signalWater n s).station = s.station ∧ (signalWater n s).role = s.role
      ∧ (signalWater n s).now = s.now ∧ (signalWater n s).joined = s.joined
      ∧ (signalWater n s).inService = s.inService ∧ (signalWater n s).bladeType = s.bladeType
      ∧ (signalWater n s).ownDraw = s.ownDraw ∧ (signalWater n s).ownGrant = s.ownGrant
      ∧ (signalWater n s).slab = s.slab ∧ (signalWater n s).jobEntry = s.jobEntry := by
  simp [State.cfg, State.station, State.role, State.now, State.joined, State.inService,
    State.bladeType, State.ownDraw, State.ownGrant, State.slab, State.jobEntry, funext_iff]

@[simp] theorem signalHalt_fields (b : Bool) (s : State) :
    (signalHalt b s).pending = s.pending ∧ (signalHalt b s).freeCount = s.freeCount
      ∧ (signalHalt b s).boot = s.boot ∧ (signalHalt b s).port.outstanding = s.port.outstanding
      ∧ (signalHalt b s).port.portErrors = s.port.portErrors ∧ (signalHalt b s).line = s.line
      ∧ (signalHalt b s).stock = s.stock ∧ (signalHalt b s).plan = s.plan ∧ (signalHalt b s).cut = s.cut
      ∧ (signalHalt b s).water = s.water ∧ (signalHalt b s).plant = s.plant ∧ (signalHalt b s).cost = s.cost := by
  unfold signalHalt
  try dsimp only
  (repeat' split) <;> simp

@[simp] theorem signalHalt_views (b : Bool) (s : State) :
    (signalHalt b s).cfg = s.cfg ∧ (signalHalt b s).station = s.station ∧ (signalHalt b s).role = s.role
      ∧ (signalHalt b s).now = s.now ∧ (signalHalt b s).joined = s.joined
      ∧ (signalHalt b s).inService = s.inService ∧ (signalHalt b s).bladeType = s.bladeType
      ∧ (signalHalt b s).ownDraw = s.ownDraw ∧ (signalHalt b s).ownGrant = s.ownGrant
      ∧ (signalHalt b s).slab = s.slab ∧ (signalHalt b s).jobEntry = s.jobEntry := by
  simp [State.cfg, State.station, State.role, State.now, State.joined, State.inService,
    State.bladeType, State.ownDraw, State.ownGrant, State.slab, State.jobEntry, funext_iff]

@[simp] theorem promptCheck_fields (b : Bool) (s : State) :
    (promptCheck b s).pending = s.pending ∧ (promptCheck b s).freeCount = s.freeCount
      ∧ (promptCheck b s).boot = s.boot ∧ (promptCheck b s).port = s.port
      ∧ (promptCheck b s).line.driving = s.line.driving
      ∧ (promptCheck b s).line.framesSent = s.line.framesSent
      ∧ (promptCheck b s).line.deferrals = s.line.deferrals
      ∧ (promptCheck b s).line.receiveErrors = s.line.receiveErrors
      ∧ (promptCheck b s).line.midFrame = s.line.midFrame ∧ (promptCheck b s).stock = s.stock
      ∧ (promptCheck b s).plan = s.plan ∧ (promptCheck b s).cut = s.cut ∧ (promptCheck b s).water = s.water
      ∧ (promptCheck b s).plant = s.plant ∧ (promptCheck b s).cost = s.cost := by
  unfold promptCheck
  try dsimp only
  (repeat' split) <;> simp

@[simp] theorem promptCheck_views (b : Bool) (s : State) :
    (promptCheck b s).cfg = s.cfg ∧ (promptCheck b s).station = s.station ∧ (promptCheck b s).role = s.role
      ∧ (promptCheck b s).now = s.now ∧ (promptCheck b s).joined = s.joined
      ∧ (promptCheck b s).inService = s.inService ∧ (promptCheck b s).bladeType = s.bladeType
      ∧ (promptCheck b s).ownDraw = s.ownDraw ∧ (promptCheck b s).ownGrant = s.ownGrant
      ∧ (promptCheck b s).slab = s.slab ∧ (promptCheck b s).jobEntry = s.jobEntry := by
  simp [State.cfg, State.station, State.role, State.now, State.joined, State.inService,
    State.bladeType, State.ownDraw, State.ownGrant, State.slab, State.jobEntry, funext_iff]

@[simp] theorem followOn_fields (b : State) (n : Nat) (fr ov : Bool) (s : State) :
    (followOn b n fr ov s).pending = s.pending ∧ (followOn b n fr ov s).freeCount = s.freeCount
      ∧ (followOn b n fr ov s).boot.runState = s.boot.runState
      ∧ (followOn b n fr ov s).boot.phase = s.boot.phase
      ∧ (followOn b n fr ov s).boot.shopTime = s.boot.shopTime
      ∧ (followOn b n fr ov s).boot.config = s.boot.config
      ∧ (followOn b n fr ov s).boot.epoch = s.boot.epoch
      ∧ (followOn b n fr ov s).boot.advanced = s.boot.advanced
      ∧ (followOn b n fr ov s).boot.listenOnly = s.boot.listenOnly
      ∧ (followOn b n fr ov s).boot.eeprom = s.boot.eeprom
      ∧ (followOn b n fr ov s).port.outstanding = s.port.outstanding
      ∧ (followOn b n fr ov s).port.portErrors = s.port.portErrors
      ∧ (followOn b n fr ov s).line.driving = s.line.driving
      ∧ (followOn b n fr ov s).line.framesSent = s.line.framesSent
      ∧ (followOn b n fr ov s).line.deferrals = s.line.deferrals
      ∧ (followOn b n fr ov s).line.receiveErrors = s.line.receiveErrors
      ∧ (followOn b n fr ov s).line.midFrame = s.line.midFrame
      ∧ (followOn b n fr ov s).stock = s.stock ∧ (followOn b n fr ov s).plan = s.plan
      ∧ (followOn b n fr ov s).cut.state = s.cut.state ∧ (followOn b n fr ov s).cut.held = s.cut.held
      ∧ (followOn b n fr ov s).cut.segment = s.cut.segment ∧ (followOn b n fr ov s).cut.blade = s.cut.blade
      ∧ (followOn b n fr ov s).cut.parked = s.cut.parked
      ∧ (followOn b n fr ov s).cut.priming = s.cut.priming
      ∧ (followOn b n fr ov s).cut.splitLeft = s.cut.splitLeft
      ∧ (followOn b n fr ov s).water.capacity = s.water.capacity
      ∧ (followOn b n fr ov s).water.stop = s.water.stop
      ∧ (followOn b n fr ov s).water.stale = s.water.stale
      ∧ (followOn b n fr ov s).water.fresh = s.water.fresh
      ∧ (followOn b n fr ov s).water.plantHeard = s.water.plantHeard
      ∧ (followOn b n fr ov s).water.silent = s.water.silent
      ∧ (followOn b n fr ov s).water.lastPlant = s.water.lastPlant
      ∧ (followOn b n fr ov s).water.draws = s.water.draws
      ∧ (followOn b n fr ov s).water.ownRequest = s.water.ownRequest
      ∧ (followOn b n fr ov s).water.refresh = s.water.refresh ∧ (followOn b n fr ov s).plant = s.plant
      ∧ (followOn b n fr ov s).cost = s.cost := by
  unfold followOn
  try dsimp only
  (repeat' split) <;> simp

@[simp] theorem followOn_views (b : State) (n : Nat) (fr ov : Bool) (s : State) :
    (followOn b n fr ov s).cfg = s.cfg ∧ (followOn b n fr ov s).station = s.station
      ∧ (followOn b n fr ov s).role = s.role ∧ (followOn b n fr ov s).now = s.now
      ∧ (followOn b n fr ov s).joined = s.joined ∧ (followOn b n fr ov s).inService = s.inService
      ∧ (followOn b n fr ov s).bladeType = s.bladeType ∧ (followOn b n fr ov s).ownDraw = s.ownDraw
      ∧ (followOn b n fr ov s).ownGrant = s.ownGrant ∧ (followOn b n fr ov s).slab = s.slab
      ∧ (followOn b n fr ov s).jobEntry = s.jobEntry := by
  simp [State.cfg, State.station, State.role, State.now, State.joined, State.inService,
    State.bladeType, State.ownDraw, State.ownGrant, State.slab, State.jobEntry, funext_iff]

@[simp] theorem applyDraw_fields (n q : Nat) (l : Bool) (g : Nat) (s : State) :
    (applyDraw n q l g s).pending = s.pending ∧ (applyDraw n q l g s).freeCount = s.freeCount
      ∧ (applyDraw n q l g s).boot.runState = s.boot.runState
      ∧ (applyDraw n q l g s).boot.phase = s.boot.phase
      ∧ (applyDraw n q l g s).boot.shopTime = s.boot.shopTime
      ∧ (applyDraw n q l g s).boot.config = s.boot.config ∧ (applyDraw n q l g s).boot.epoch = s.boot.epoch
      ∧ (applyDraw n q l g s).boot.advanced = s.boot.advanced
      ∧ (applyDraw n q l g s).boot.listenOnly = s.boot.listenOnly
      ∧ (applyDraw n q l g s).boot.eeprom = s.boot.eeprom
      ∧ (applyDraw n q l g s).port.outstanding = s.port.outstanding
      ∧ (applyDraw n q l g s).port.portErrors = s.port.portErrors
      ∧ (applyDraw n q l g s).line.driving = s.line.driving
      ∧ (applyDraw n q l g s).line.framesSent = s.line.framesSent
      ∧ (applyDraw n q l g s).line.deferrals = s.line.deferrals
      ∧ (applyDraw n q l g s).line.receiveErrors = s.line.receiveErrors
      ∧ (applyDraw n q l g s).line.midFrame = s.line.midFrame
      ∧ (applyDraw n q l g s).stock = s.stock ∧ (applyDraw n q l g s).plan = s.plan
      ∧ (applyDraw n q l g s).cut.state = s.cut.state ∧ (applyDraw n q l g s).cut.held = s.cut.held
      ∧ (applyDraw n q l g s).cut.segment = s.cut.segment ∧ (applyDraw n q l g s).cut.blade = s.cut.blade
      ∧ (applyDraw n q l g s).cut.parked = s.cut.parked ∧ (applyDraw n q l g s).cut.priming = s.cut.priming
      ∧ (applyDraw n q l g s).cut.splitLeft = s.cut.splitLeft
      ∧ (applyDraw n q l g s).water.capacity = s.water.capacity
      ∧ (applyDraw n q l g s).water.stop = s.water.stop ∧ (applyDraw n q l g s).water.stale = s.water.stale
      ∧ (applyDraw n q l g s).water.fresh = s.water.fresh
      ∧ (applyDraw n q l g s).water.plantHeard = s.water.plantHeard
      ∧ (applyDraw n q l g s).water.silent = s.water.silent
      ∧ (applyDraw n q l g s).water.lastPlant = s.water.lastPlant
      ∧ (applyDraw n q l g s).water.ownRequest = s.water.ownRequest ∧ (applyDraw n q l g s).plant = s.plant
      ∧ (applyDraw n q l g s).cost = s.cost := by
  unfold applyDraw
  try dsimp only
  (repeat' split) <;> simp

@[simp] theorem applyDraw_views (n q : Nat) (l : Bool) (g : Nat) (s : State) :
    (applyDraw n q l g s).cfg = s.cfg ∧ (applyDraw n q l g s).station = s.station
      ∧ (applyDraw n q l g s).role = s.role ∧ (applyDraw n q l g s).now = s.now
      ∧ (applyDraw n q l g s).joined = s.joined ∧ (applyDraw n q l g s).inService = s.inService
      ∧ (applyDraw n q l g s).bladeType = s.bladeType ∧ (applyDraw n q l g s).slab = s.slab
      ∧ (applyDraw n q l g s).jobEntry = s.jobEntry := by
  simp [State.cfg, State.station, State.role, State.now, State.joined, State.inService,
    State.bladeType, State.slab, State.jobEntry, funext_iff]

@[simp] theorem applyPlant_fields (n c f : Nat) (st sl : Bool) (s : State) :
    (applyPlant n c f st sl s).pending = s.pending ∧ (applyPlant n c f st sl s).freeCount = s.freeCount
      ∧ (applyPlant n c f st sl s).boot.runState = s.boot.runState
      ∧ (applyPlant n c f st sl s).boot.phase = s.boot.phase
      ∧ (applyPlant n c f st sl s).boot.shopTime = s.boot.shopTime
      ∧ (applyPlant n c f st sl s).boot.config = s.boot.config
      ∧ (applyPlant n c f st sl s).boot.epoch = s.boot.epoch
      ∧ (applyPlant n c f st sl s).boot.advanced = s.boot.advanced
      ∧ (applyPlant n c f st sl s).boot.listenOnly = s.boot.listenOnly
      ∧ (applyPlant n c f st sl s).boot.eeprom = s.boot.eeprom
      ∧ (applyPlant n c f st sl s).port.outstanding = s.port.outstanding
      ∧ (applyPlant n c f st sl s).port.portErrors = s.port.portErrors
      ∧ (applyPlant n c f st sl s).line.driving = s.line.driving
      ∧ (applyPlant n c f st sl s).line.framesSent = s.line.framesSent
      ∧ (applyPlant n c f st sl s).line.deferrals = s.line.deferrals
      ∧ (applyPlant n c f st sl s).line.receiveErrors = s.line.receiveErrors
      ∧ (applyPlant n c f st sl s).line.midFrame = s.line.midFrame
      ∧ (applyPlant n c f st sl s).stock = s.stock ∧ (applyPlant n c f st sl s).plan = s.plan
      ∧ (applyPlant n c f st sl s).cut.state = s.cut.state
      ∧ (applyPlant n c f st sl s).cut.held = s.cut.held
      ∧ (applyPlant n c f st sl s).cut.segment = s.cut.segment
      ∧ (applyPlant n c f st sl s).cut.blade = s.cut.blade
      ∧ (applyPlant n c f st sl s).cut.parked = s.cut.parked
      ∧ (applyPlant n c f st sl s).cut.priming = s.cut.priming
      ∧ (applyPlant n c f st sl s).cut.splitLeft = s.cut.splitLeft
      ∧ (applyPlant n c f st sl s).water.ownRequest = s.water.ownRequest
      ∧ (applyPlant n c f st sl s).water.refresh = s.water.refresh
      ∧ (applyPlant n c f st sl s).plant = s.plant ∧ (applyPlant n c f st sl s).cost = s.cost := by
  simp [applyPlant]

@[simp] theorem applyPlant_views (n c f : Nat) (st sl : Bool) (s : State) :
    (applyPlant n c f st sl s).cfg = s.cfg ∧ (applyPlant n c f st sl s).station = s.station
      ∧ (applyPlant n c f st sl s).role = s.role ∧ (applyPlant n c f st sl s).now = s.now
      ∧ (applyPlant n c f st sl s).joined = s.joined ∧ (applyPlant n c f st sl s).inService = s.inService
      ∧ (applyPlant n c f st sl s).bladeType = s.bladeType ∧ (applyPlant n c f st sl s).slab = s.slab
      ∧ (applyPlant n c f st sl s).jobEntry = s.jobEntry := by
  simp [State.cfg, State.station, State.role, State.now, State.joined, State.inService,
    State.bladeType, State.slab, State.jobEntry, funext_iff]

@[simp] theorem applyOverride_fields (c : Option Cmd) (s : State) :
    (applyOverride c s).pending = s.pending ∧ (applyOverride c s).freeCount = s.freeCount
      ∧ (applyOverride c s).boot.runState = s.boot.runState ∧ (applyOverride c s).boot.phase = s.boot.phase
      ∧ (applyOverride c s).boot.shopTime = s.boot.shopTime
      ∧ (applyOverride c s).boot.config = s.boot.config ∧ (applyOverride c s).boot.epoch = s.boot.epoch
      ∧ (applyOverride c s).boot.advanced = s.boot.advanced
      ∧ (applyOverride c s).boot.listenOnly = s.boot.listenOnly
      ∧ (applyOverride c s).boot.eeprom = s.boot.eeprom
      ∧ (applyOverride c s).port.portErrors = s.port.portErrors
      ∧ (applyOverride c s).line.driving = s.line.driving
      ∧ (applyOverride c s).line.framesSent = s.line.framesSent
      ∧ (applyOverride c s).line.deferrals = s.line.deferrals
      ∧ (applyOverride c s).line.receiveErrors = s.line.receiveErrors
      ∧ (applyOverride c s).line.midFrame = s.line.midFrame ∧ (applyOverride c s).stock = s.stock
      ∧ (applyOverride c s).plan = s.plan ∧ (applyOverride c s).cut.state = s.cut.state
      ∧ (applyOverride c s).cut.held = s.cut.held ∧ (applyOverride c s).cut.segment = s.cut.segment
      ∧ (applyOverride c s).cut.blade = s.cut.blade ∧ (applyOverride c s).cut.parked = s.cut.parked
      ∧ (applyOverride c s).cut.priming = s.cut.priming
      ∧ (applyOverride c s).cut.splitLeft = s.cut.splitLeft
      ∧ (applyOverride c s).water.capacity = s.water.capacity
      ∧ (applyOverride c s).water.stale = s.water.stale ∧ (applyOverride c s).water.fresh = s.water.fresh
      ∧ (applyOverride c s).water.plantHeard = s.water.plantHeard
      ∧ (applyOverride c s).water.silent = s.water.silent
      ∧ (applyOverride c s).water.lastPlant = s.water.lastPlant
      ∧ (applyOverride c s).water.draws = s.water.draws
      ∧ (applyOverride c s).water.ownRequest = s.water.ownRequest
      ∧ (applyOverride c s).water.refresh = s.water.refresh ∧ (applyOverride c s).plant = s.plant
      ∧ (applyOverride c s).cost = s.cost := by
  simp [applyOverride]

@[simp] theorem applyOverride_views (c : Option Cmd) (s : State) :
    (applyOverride c s).cfg = s.cfg ∧ (applyOverride c s).station = s.station
      ∧ (applyOverride c s).role = s.role ∧ (applyOverride c s).now = s.now
      ∧ (applyOverride c s).joined = s.joined ∧ (applyOverride c s).inService = s.inService
      ∧ (applyOverride c s).bladeType = s.bladeType ∧ (applyOverride c s).ownDraw = s.ownDraw
      ∧ (applyOverride c s).ownGrant = s.ownGrant ∧ (applyOverride c s).slab = s.slab
      ∧ (applyOverride c s).jobEntry = s.jobEntry := by
  simp [State.cfg, State.station, State.role, State.now, State.joined, State.inService,
    State.bladeType, State.ownDraw, State.ownGrant, State.slab, State.jobEntry, funext_iff]

@[simp] theorem removeDraw_fields (n : Nat) (s : State) :
    (removeDraw n s).pending = s.pending ∧ (removeDraw n s).freeCount = s.freeCount
      ∧ (removeDraw n s).boot.runState = s.boot.runState ∧ (removeDraw n s).boot.phase = s.boot.phase
      ∧ (removeDraw n s).boot.shopTime = s.boot.shopTime ∧ (removeDraw n s).boot.config = s.boot.config
      ∧ (removeDraw n s).boot.epoch = s.boot.epoch ∧ (removeDraw n s).boot.advanced = s.boot.advanced
      ∧ (removeDraw n s).boot.listenOnly = s.boot.listenOnly ∧ (removeDraw n s).boot.eeprom = s.boot.eeprom
      ∧ (removeDraw n s).port.outstanding = s.port.outstanding
      ∧ (removeDraw n s).port.portErrors = s.port.portErrors
      ∧ (removeDraw n s).line.driving = s.line.driving
      ∧ (removeDraw n s).line.framesSent = s.line.framesSent
      ∧ (removeDraw n s).line.deferrals = s.line.deferrals
      ∧ (removeDraw n s).line.receiveErrors = s.line.receiveErrors
      ∧ (removeDraw n s).line.midFrame = s.line.midFrame ∧ (removeDraw n s).stock = s.stock
      ∧ (removeDraw n s).plan = s.plan ∧ (removeDraw n s).cut.state = s.cut.state
      ∧ (removeDraw n s).cut.held = s.cut.held ∧ (removeDraw n s).cut.segment = s.cut.segment
      ∧ (removeDraw n s).cut.blade = s.cut.blade ∧ (removeDraw n s).cut.parked = s.cut.parked
      ∧ (removeDraw n s).cut.priming = s.cut.priming ∧ (removeDraw n s).cut.splitLeft = s.cut.splitLeft
      ∧ (removeDraw n s).water.capacity = s.water.capacity ∧ (removeDraw n s).water.stop = s.water.stop
      ∧ (removeDraw n s).water.stale = s.water.stale ∧ (removeDraw n s).water.fresh = s.water.fresh
      ∧ (removeDraw n s).water.plantHeard = s.water.plantHeard
      ∧ (removeDraw n s).water.silent = s.water.silent
      ∧ (removeDraw n s).water.lastPlant = s.water.lastPlant
      ∧ (removeDraw n s).water.ownRequest = s.water.ownRequest
      ∧ (removeDraw n s).water.refresh = s.water.refresh ∧ (removeDraw n s).plant = s.plant
      ∧ (removeDraw n s).cost = s.cost := by
  unfold removeDraw
  try dsimp only
  (repeat' split) <;> simp

@[simp] theorem removeDraw_views (n : Nat) (s : State) :
    (removeDraw n s).cfg = s.cfg ∧ (removeDraw n s).station = s.station ∧ (removeDraw n s).role = s.role
      ∧ (removeDraw n s).now = s.now ∧ (removeDraw n s).joined = s.joined
      ∧ (removeDraw n s).inService = s.inService ∧ (removeDraw n s).bladeType = s.bladeType
      ∧ (removeDraw n s).slab = s.slab ∧ (removeDraw n s).jobEntry = s.jobEntry := by
  simp [State.cfg, State.station, State.role, State.now, State.joined, State.inService,
    State.bladeType, State.slab, State.jobEntry, funext_iff]

@[simp] theorem plantSilent_fields (s : State) :
    (plantSilent s).pending = s.pending ∧ (plantSilent s).freeCount = s.freeCount
      ∧ (plantSilent s).boot.runState = s.boot.runState ∧ (plantSilent s).boot.phase = s.boot.phase
      ∧ (plantSilent s).boot.shopTime = s.boot.shopTime ∧ (plantSilent s).boot.config = s.boot.config
      ∧ (plantSilent s).boot.epoch = s.boot.epoch ∧ (plantSilent s).boot.advanced = s.boot.advanced
      ∧ (plantSilent s).boot.listenOnly = s.boot.listenOnly ∧ (plantSilent s).boot.eeprom = s.boot.eeprom
      ∧ (plantSilent s).port.outstanding = s.port.outstanding
      ∧ (plantSilent s).port.portErrors = s.port.portErrors ∧ (plantSilent s).line.driving = s.line.driving
      ∧ (plantSilent s).line.framesSent = s.line.framesSent
      ∧ (plantSilent s).line.deferrals = s.line.deferrals
      ∧ (plantSilent s).line.receiveErrors = s.line.receiveErrors
      ∧ (plantSilent s).line.midFrame = s.line.midFrame ∧ (plantSilent s).stock = s.stock
      ∧ (plantSilent s).plan = s.plan ∧ (plantSilent s).cut.state = s.cut.state
      ∧ (plantSilent s).cut.held = s.cut.held ∧ (plantSilent s).cut.segment = s.cut.segment
      ∧ (plantSilent s).cut.blade = s.cut.blade ∧ (plantSilent s).cut.parked = s.cut.parked
      ∧ (plantSilent s).cut.priming = s.cut.priming ∧ (plantSilent s).cut.splitLeft = s.cut.splitLeft
      ∧ (plantSilent s).water.stop = s.water.stop ∧ (plantSilent s).water.stale = s.water.stale
      ∧ (plantSilent s).water.fresh = s.water.fresh ∧ (plantSilent s).water.lastPlant = s.water.lastPlant
      ∧ (plantSilent s).water.ownRequest = s.water.ownRequest
      ∧ (plantSilent s).water.refresh = s.water.refresh ∧ (plantSilent s).plant = s.plant
      ∧ (plantSilent s).cost = s.cost := by
  simp [plantSilent]

@[simp] theorem plantSilent_views (s : State) :
    (plantSilent s).cfg = s.cfg ∧ (plantSilent s).station = s.station ∧ (plantSilent s).role = s.role
      ∧ (plantSilent s).now = s.now ∧ (plantSilent s).joined = s.joined
      ∧ (plantSilent s).inService = s.inService ∧ (plantSilent s).bladeType = s.bladeType
      ∧ (plantSilent s).slab = s.slab ∧ (plantSilent s).jobEntry = s.jobEntry := by
  simp [State.cfg, State.station, State.role, State.now, State.joined, State.inService,
    State.bladeType, State.slab, State.jobEntry, funext_iff]

end Sys2Proof.Machine
end

