-- ==== Sys2Proof/Laws/FrameStockUnit.lean ====
section
/-! SUPPORT. What the stock unit leaves unchanged: for each operation one lemma of the fields it does not
touch, and one of what is read from them. -/

namespace Sys2Proof.Machine

@[simp] theorem recordNew_fields (r : SlabRecord) (s : State) :
    (recordNew r s).pending = s.pending ∧ (recordNew r s).freeCount = s.freeCount
      ∧ (recordNew r s).boot.runState = s.boot.runState ∧ (recordNew r s).boot.phase = s.boot.phase
      ∧ (recordNew r s).boot.shopTime = s.boot.shopTime ∧ (recordNew r s).boot.config = s.boot.config
      ∧ (recordNew r s).boot.epoch = s.boot.epoch ∧ (recordNew r s).boot.advanced = s.boot.advanced
      ∧ (recordNew r s).boot.listenOnly = s.boot.listenOnly ∧ (recordNew r s).boot.eeprom = s.boot.eeprom
      ∧ (recordNew r s).port.outstanding = s.port.outstanding
      ∧ (recordNew r s).port.portErrors = s.port.portErrors ∧ (recordNew r s).line = s.line
      ∧ (recordNew r s).stock.seqNext = s.stock.seqNext ∧ (recordNew r s).stock.window = s.stock.window
      ∧ (recordNew r s).stock.heldExpiry = s.stock.heldExpiry
      ∧ (recordNew r s).stock.answerBatch = s.stock.answerBatch
      ∧ (recordNew r s).stock.answerTouched = s.stock.answerTouched ∧ (recordNew r s).plan = s.plan
      ∧ (recordNew r s).cut = s.cut ∧ (recordNew r s).water = s.water ∧ (recordNew r s).plant = s.plant
      ∧ (recordNew r s).cost = s.cost := by
  unfold recordNew
  try dsimp only
  (repeat' split) <;> simp

@[simp] theorem recordNew_views (r : SlabRecord) (s : State) :
    (recordNew r s).cfg = s.cfg ∧ (recordNew r s).station = s.station ∧ (recordNew r s).role = s.role
      ∧ (recordNew r s).now = s.now ∧ (recordNew r s).joined = s.joined
      ∧ (recordNew r s).inService = s.inService ∧ (recordNew r s).bladeType = s.bladeType
      ∧ (recordNew r s).ownDraw = s.ownDraw ∧ (recordNew r s).ownGrant = s.ownGrant
      ∧ (recordNew r s).jobEntry = s.jobEntry := by
  simp [State.cfg, State.station, State.role, State.now, State.joined, State.inService,
    State.bladeType, State.ownDraw, State.ownGrant, State.jobEntry, funext_iff]

@[simp] theorem writeSlab_fields (r : SlabRecord) (s : State) :
    (writeSlab r s).pending = s.pending ∧ (writeSlab r s).freeCount = s.freeCount
      ∧ (writeSlab r s).boot = s.boot ∧ (writeSlab r s).port = s.port ∧ (writeSlab r s).line = s.line
      ∧ (writeSlab r s).stock.seqNext = s.stock.seqNext ∧ (writeSlab r s).stock.window = s.stock.window
      ∧ (writeSlab r s).stock.heldExpiry = s.stock.heldExpiry
      ∧ (writeSlab r s).stock.answerBatch = s.stock.answerBatch
      ∧ (writeSlab r s).stock.answerTouched = s.stock.answerTouched ∧ (writeSlab r s).plan = s.plan
      ∧ (writeSlab r s).cut = s.cut ∧ (writeSlab r s).water = s.water ∧ (writeSlab r s).plant = s.plant
      ∧ (writeSlab r s).cost = s.cost := by
  simp [writeSlab]

@[simp] theorem writeSlab_views (r : SlabRecord) (s : State) :
    (writeSlab r s).cfg = s.cfg ∧ (writeSlab r s).station = s.station ∧ (writeSlab r s).role = s.role
      ∧ (writeSlab r s).now = s.now ∧ (writeSlab r s).joined = s.joined
      ∧ (writeSlab r s).inService = s.inService ∧ (writeSlab r s).bladeType = s.bladeType
      ∧ (writeSlab r s).ownDraw = s.ownDraw ∧ (writeSlab r s).ownGrant = s.ownGrant
      ∧ (writeSlab r s).jobEntry = s.jobEntry := by
  simp [State.cfg, State.station, State.role, State.now, State.joined, State.inService,
    State.bladeType, State.ownDraw, State.ownGrant, State.jobEntry, funext_iff]

@[simp] theorem endHold_fields (i : SlabId) (s : State) :
    (endHold i s).pending = s.pending ∧ (endHold i s).freeCount = s.freeCount ∧ (endHold i s).boot = s.boot
      ∧ (endHold i s).port.outstanding = s.port.outstanding
      ∧ (endHold i s).port.portErrors = s.port.portErrors ∧ (endHold i s).line.driving = s.line.driving
      ∧ (endHold i s).line.framesSent = s.line.framesSent ∧ (endHold i s).line.deferrals = s.line.deferrals
      ∧ (endHold i s).line.receiveErrors = s.line.receiveErrors
      ∧ (endHold i s).line.midFrame = s.line.midFrame ∧ (endHold i s).stock.table = s.stock.table
      ∧ (endHold i s).stock.seqNext = s.stock.seqNext
      ∧ (endHold i s).stock.answerBatch = s.stock.answerBatch
      ∧ (endHold i s).stock.answerTouched = s.stock.answerTouched ∧ (endHold i s).cut.blade = s.cut.blade
      ∧ (endHold i s).cut.parked = s.cut.parked ∧ (endHold i s).cut.priming = s.cut.priming
      ∧ (endHold i s).cut.splitLeft = s.cut.splitLeft ∧ (endHold i s).water = s.water
      ∧ (endHold i s).plant = s.plant ∧ (endHold i s).cost = s.cost := by
  unfold endHold
  try dsimp only
  (repeat' split) <;> simp

@[simp] theorem endHold_views (i : SlabId) (s : State) :
    (endHold i s).cfg = s.cfg ∧ (endHold i s).station = s.station ∧ (endHold i s).role = s.role
      ∧ (endHold i s).now = s.now ∧ (endHold i s).joined = s.joined ∧ (endHold i s).inService = s.inService
      ∧ (endHold i s).bladeType = s.bladeType ∧ (endHold i s).ownDraw = s.ownDraw
      ∧ (endHold i s).ownGrant = s.ownGrant ∧ (endHold i s).slab = s.slab
      ∧ (endHold i s).jobEntry = s.jobEntry := by
  simp [State.cfg, State.station, State.role, State.now, State.joined, State.inService,
    State.bladeType, State.ownDraw, State.ownGrant, State.slab, State.jobEntry, funext_iff]

@[simp] theorem adopt_fields (r : SlabRecord) (s : State) :
    (adopt r s).pending = s.pending ∧ (adopt r s).freeCount = s.freeCount
      ∧ (adopt r s).boot.runState = s.boot.runState ∧ (adopt r s).boot.phase = s.boot.phase
      ∧ (adopt r s).boot.shopTime = s.boot.shopTime ∧ (adopt r s).boot.config = s.boot.config
      ∧ (adopt r s).boot.epoch = s.boot.epoch ∧ (adopt r s).boot.advanced = s.boot.advanced
      ∧ (adopt r s).boot.listenOnly = s.boot.listenOnly ∧ (adopt r s).boot.eeprom = s.boot.eeprom
      ∧ (adopt r s).port.outstanding = s.port.outstanding ∧ (adopt r s).port.portErrors = s.port.portErrors
      ∧ (adopt r s).line.driving = s.line.driving ∧ (adopt r s).line.framesSent = s.line.framesSent
      ∧ (adopt r s).line.deferrals = s.line.deferrals
      ∧ (adopt r s).line.receiveErrors = s.line.receiveErrors
      ∧ (adopt r s).line.midFrame = s.line.midFrame ∧ (adopt r s).stock.seqNext = s.stock.seqNext
      ∧ (adopt r s).stock.answerBatch = s.stock.answerBatch
      ∧ (adopt r s).stock.answerTouched = s.stock.answerTouched ∧ (adopt r s).cut.blade = s.cut.blade
      ∧ (adopt r s).cut.parked = s.cut.parked ∧ (adopt r s).cut.priming = s.cut.priming
      ∧ (adopt r s).cut.splitLeft = s.cut.splitLeft ∧ (adopt r s).water = s.water
      ∧ (adopt r s).plant = s.plant ∧ (adopt r s).cost = s.cost := by
  unfold adopt
  try dsimp only
  (repeat' split) <;> simp

@[simp] theorem adopt_views (r : SlabRecord) (s : State) :
    (adopt r s).cfg = s.cfg ∧ (adopt r s).station = s.station ∧ (adopt r s).role = s.role
      ∧ (adopt r s).now = s.now ∧ (adopt r s).joined = s.joined ∧ (adopt r s).inService = s.inService
      ∧ (adopt r s).bladeType = s.bladeType ∧ (adopt r s).ownDraw = s.ownDraw
      ∧ (adopt r s).ownGrant = s.ownGrant ∧ (adopt r s).jobEntry = s.jobEntry := by
  simp [State.cfg, State.station, State.role, State.now, State.joined, State.inService,
    State.bladeType, State.ownDraw, State.ownGrant, State.jobEntry, funext_iff]

@[simp] theorem applyPlain_fields (r : SlabRecord) (s : State) :
    (applyPlain r s).pending = s.pending ∧ (applyPlain r s).freeCount = s.freeCount
      ∧ (applyPlain r s).boot.runState = s.boot.runState ∧ (applyPlain r s).boot.phase = s.boot.phase
      ∧ (applyPlain r s).boot.shopTime = s.boot.shopTime ∧ (applyPlain r s).boot.config = s.boot.config
      ∧ (applyPlain r s).boot.epoch = s.boot.epoch ∧ (applyPlain r s).boot.advanced = s.boot.advanced
      ∧ (applyPlain r s).boot.listenOnly = s.boot.listenOnly ∧ (applyPlain r s).boot.eeprom = s.boot.eeprom
      ∧ (applyPlain r s).port.outstanding = s.port.outstanding
      ∧ (applyPlain r s).port.portErrors = s.port.portErrors
      ∧ (applyPlain r s).line.driving = s.line.driving
      ∧ (applyPlain r s).line.framesSent = s.line.framesSent
      ∧ (applyPlain r s).line.deferrals = s.line.deferrals
      ∧ (applyPlain r s).line.receiveErrors = s.line.receiveErrors
      ∧ (applyPlain r s).line.midFrame = s.line.midFrame
      ∧ (applyPlain r s).stock.seqNext = s.stock.seqNext
      ∧ (applyPlain r s).stock.answerBatch = s.stock.answerBatch
      ∧ (applyPlain r s).stock.answerTouched = s.stock.answerTouched
      ∧ (applyPlain r s).cut.blade = s.cut.blade ∧ (applyPlain r s).cut.parked = s.cut.parked
      ∧ (applyPlain r s).cut.priming = s.cut.priming ∧ (applyPlain r s).cut.splitLeft = s.cut.splitLeft
      ∧ (applyPlain r s).water = s.water ∧ (applyPlain r s).plant = s.plant ∧ (applyPlain r s).cost = s.cost := by
  unfold applyPlain
  try dsimp only
  (repeat' split) <;> simp

@[simp] theorem applyPlain_views (r : SlabRecord) (s : State) :
    (applyPlain r s).cfg = s.cfg ∧ (applyPlain r s).station = s.station ∧ (applyPlain r s).role = s.role
      ∧ (applyPlain r s).now = s.now ∧ (applyPlain r s).joined = s.joined
      ∧ (applyPlain r s).inService = s.inService ∧ (applyPlain r s).bladeType = s.bladeType
      ∧ (applyPlain r s).ownDraw = s.ownDraw ∧ (applyPlain r s).ownGrant = s.ownGrant
      ∧ (applyPlain r s).jobEntry = s.jobEntry := by
  simp [State.cfg, State.station, State.role, State.now, State.joined, State.inService,
    State.bladeType, State.ownDraw, State.ownGrant, State.jobEntry, funext_iff]

@[simp] theorem claimWon_fields (r : SlabRecord) (c : Option Cmd) (s : State) :
    (claimWon r c s).pending = s.pending ∧ (claimWon r c s).freeCount = s.freeCount
      ∧ (claimWon r c s).boot.runState = s.boot.runState ∧ (claimWon r c s).boot.phase = s.boot.phase
      ∧ (claimWon r c s).boot.shopTime = s.boot.shopTime ∧ (claimWon r c s).boot.config = s.boot.config
      ∧ (claimWon r c s).boot.epoch = s.boot.epoch ∧ (claimWon r c s).boot.advanced = s.boot.advanced
      ∧ (claimWon r c s).boot.listenOnly = s.boot.listenOnly ∧ (claimWon r c s).boot.eeprom = s.boot.eeprom
      ∧ (claimWon r c s).port.portErrors = s.port.portErrors ∧ (claimWon r c s).line = s.line
      ∧ (claimWon r c s).stock.table = s.stock.table ∧ (claimWon r c s).stock.seqNext = s.stock.seqNext
      ∧ (claimWon r c s).stock.answerBatch = s.stock.answerBatch
      ∧ (claimWon r c s).stock.answerTouched = s.stock.answerTouched
      ∧ (claimWon r c s).cut.blade = s.cut.blade ∧ (claimWon r c s).cut.parked = s.cut.parked
      ∧ (claimWon r c s).cut.priming = s.cut.priming ∧ (claimWon r c s).cut.splitLeft = s.cut.splitLeft
      ∧ (claimWon r c s).water = s.water ∧ (claimWon r c s).plant = s.plant
      ∧ (claimWon r c s).cost.log = s.cost.log ∧ (claimWon r c s).cost.armed = s.cost.armed := by
  simp [claimWon]

@[simp] theorem claimWon_views (r : SlabRecord) (c : Option Cmd) (s : State) :
    (claimWon r c s).cfg = s.cfg ∧ (claimWon r c s).station = s.station ∧ (claimWon r c s).role = s.role
      ∧ (claimWon r c s).now = s.now ∧ (claimWon r c s).joined = s.joined
      ∧ (claimWon r c s).inService = s.inService ∧ (claimWon r c s).bladeType = s.bladeType
      ∧ (claimWon r c s).ownDraw = s.ownDraw ∧ (claimWon r c s).ownGrant = s.ownGrant
      ∧ (claimWon r c s).slab = s.slab := by
  simp [State.cfg, State.station, State.role, State.now, State.joined, State.inService,
    State.bladeType, State.ownDraw, State.ownGrant, State.slab, funext_iff]

@[simp] theorem claimEnded_fields (sg : Signal) (s : State) :
    (claimEnded sg s).pending = s.pending ∧ (claimEnded sg s).freeCount = s.freeCount
      ∧ (claimEnded sg s).boot = s.boot ∧ (claimEnded sg s).port.outstanding = s.port.outstanding
      ∧ (claimEnded sg s).port.portErrors = s.port.portErrors ∧ (claimEnded sg s).line = s.line
      ∧ (claimEnded sg s).stock.table = s.stock.table ∧ (claimEnded sg s).stock.seqNext = s.stock.seqNext
      ∧ (claimEnded sg s).stock.answerBatch = s.stock.answerBatch
      ∧ (claimEnded sg s).stock.answerTouched = s.stock.answerTouched
      ∧ (claimEnded sg s).cut.blade = s.cut.blade ∧ (claimEnded sg s).cut.parked = s.cut.parked
      ∧ (claimEnded sg s).cut.priming = s.cut.priming ∧ (claimEnded sg s).cut.splitLeft = s.cut.splitLeft
      ∧ (claimEnded sg s).water = s.water ∧ (claimEnded sg s).plant = s.plant
      ∧ (claimEnded sg s).cost = s.cost := by
  simp [claimEnded]

@[simp] theorem claimEnded_views (sg : Signal) (s : State) :
    (claimEnded sg s).cfg = s.cfg ∧ (claimEnded sg s).station = s.station ∧ (claimEnded sg s).role = s.role
      ∧ (claimEnded sg s).now = s.now ∧ (claimEnded sg s).joined = s.joined
      ∧ (claimEnded sg s).inService = s.inService ∧ (claimEnded sg s).bladeType = s.bladeType
      ∧ (claimEnded sg s).ownDraw = s.ownDraw ∧ (claimEnded sg s).ownGrant = s.ownGrant
      ∧ (claimEnded sg s).slab = s.slab ∧ (claimEnded sg s).jobEntry = s.jobEntry := by
  simp [State.cfg, State.station, State.role, State.now, State.joined, State.inService,
    State.bladeType, State.ownDraw, State.ownGrant, State.slab, State.jobEntry, funext_iff]

@[simp] theorem stockEffects_fields (k : StockKind) (n : Nat) (r b : SlabRecord) (c : Option Cmd) (s : State) :
    (stockEffects k n r b c s).pending = s.pending ∧ (stockEffects k n r b c s).freeCount = s.freeCount
      ∧ (stockEffects k n r b c s).boot.runState = s.boot.runState
      ∧ (stockEffects k n r b c s).boot.phase = s.boot.phase
      ∧ (stockEffects k n r b c s).boot.shopTime = s.boot.shopTime
      ∧ (stockEffects k n r b c s).boot.config = s.boot.config
      ∧ (stockEffects k n r b c s).boot.epoch = s.boot.epoch
      ∧ (stockEffects k n r b c s).boot.advanced = s.boot.advanced
      ∧ (stockEffects k n r b c s).boot.listenOnly = s.boot.listenOnly
      ∧ (stockEffects k n r b c s).boot.eeprom = s.boot.eeprom
      ∧ (stockEffects k n r b c s).port.portErrors = s.port.portErrors
      ∧ (stockEffects k n r b c s).line = s.line ∧ (stockEffects k n r b c s).stock.table = s.stock.table
      ∧ (stockEffects k n r b c s).stock.seqNext = s.stock.seqNext
      ∧ (stockEffects k n r b c s).stock.answerBatch = s.stock.answerBatch
      ∧ (stockEffects k n r b c s).stock.answerTouched = s.stock.answerTouched
      ∧ (stockEffects k n r b c s).cut.blade = s.cut.blade
      ∧ (stockEffects k n r b c s).cut.parked = s.cut.parked
      ∧ (stockEffects k n r b c s).cut.priming = s.cut.priming
      ∧ (stockEffects k n r b c s).cut.splitLeft = s.cut.splitLeft
      ∧ (stockEffects k n r b c s).water = s.water ∧ (stockEffects k n r b c s).plant = s.plant
      ∧ (stockEffects k n r b c s).cost.log = s.cost.log
      ∧ (stockEffects k n r b c s).cost.armed = s.cost.armed := by
  unfold stockEffects
  cases k with
  | free why => cases why <;> (dsimp only; repeat' split) <;> simp
  | _ => (dsimp only; repeat' split) <;> simp

@[simp] theorem stockEffects_views (k : StockKind) (n : Nat) (r b : SlabRecord) (c : Option Cmd) (s : State) :
    (stockEffects k n r b c s).cfg = s.cfg ∧ (stockEffects k n r b c s).station = s.station
      ∧ (stockEffects k n r b c s).role = s.role ∧ (stockEffects k n r b c s).now = s.now
      ∧ (stockEffects k n r b c s).joined = s.joined ∧ (stockEffects k n r b c s).inService = s.inService
      ∧ (stockEffects k n r b c s).bladeType = s.bladeType ∧ (stockEffects k n r b c s).ownDraw = s.ownDraw
      ∧ (stockEffects k n r b c s).ownGrant = s.ownGrant ∧ (stockEffects k n r b c s).slab = s.slab := by
  simp [State.cfg, State.station, State.role, State.now, State.joined, State.inService,
    State.bladeType, State.ownDraw, State.ownGrant, State.slab, funext_iff]

@[simp] theorem applyChecked_fields (k : StockKind) (n p : Nat) (r : SlabRecord) (c : Option Cmd) (s : State) :
    (applyChecked k n p r c s).pending = s.pending ∧ (applyChecked k n p r c s).freeCount = s.freeCount
      ∧ (applyChecked k n p r c s).boot.runState = s.boot.runState
      ∧ (applyChecked k n p r c s).boot.phase = s.boot.phase
      ∧ (applyChecked k n p r c s).boot.shopTime = s.boot.shopTime
      ∧ (applyChecked k n p r c s).boot.config = s.boot.config
      ∧ (applyChecked k n p r c s).boot.epoch = s.boot.epoch
      ∧ (applyChecked k n p r c s).boot.advanced = s.boot.advanced
      ∧ (applyChecked k n p r c s).boot.listenOnly = s.boot.listenOnly
      ∧ (applyChecked k n p r c s).boot.eeprom = s.boot.eeprom
      ∧ (applyChecked k n p r c s).port.portErrors = s.port.portErrors
      ∧ (applyChecked k n p r c s).line.driving = s.line.driving
      ∧ (applyChecked k n p r c s).line.framesSent = s.line.framesSent
      ∧ (applyChecked k n p r c s).line.deferrals = s.line.deferrals
      ∧ (applyChecked k n p r c s).line.receiveErrors = s.line.receiveErrors
      ∧ (applyChecked k n p r c s).line.midFrame = s.line.midFrame
      ∧ (applyChecked k n p r c s).stock.seqNext = s.stock.seqNext
      ∧ (applyChecked k n p r c s).stock.answerBatch = s.stock.answerBatch
      ∧ (applyChecked k n p r c s).stock.answerTouched = s.stock.answerTouched
      ∧ (applyChecked k n p r c s).cut.blade = s.cut.blade
      ∧ (applyChecked k n p r c s).cut.parked = s.cut.parked
      ∧ (applyChecked k n p r c s).cut.priming = s.cut.priming
      ∧ (applyChecked k n p r c s).cut.splitLeft = s.cut.splitLeft
      ∧ (applyChecked k n p r c s).water = s.water ∧ (applyChecked k n p r c s).plant = s.plant
      ∧ (applyChecked k n p r c s).cost.log = s.cost.log
      ∧ (applyChecked k n p r c s).cost.armed = s.cost.armed := by
  unfold applyChecked
  try dsimp only
  (repeat' split) <;> simp

@[simp] theorem applyChecked_views (k : StockKind) (n p : Nat) (r : SlabRecord) (c : Option Cmd) (s : State) :
    (applyChecked k n p r c s).cfg = s.cfg ∧ (applyChecked k n p r c s).station = s.station
      ∧ (applyChecked k n p r c s).role = s.role ∧ (applyChecked k n p r c s).now = s.now
      ∧ (applyChecked k n p r c s).joined = s.joined ∧ (applyChecked k n p r c s).inService = s.inService
      ∧ (applyChecked k n p r c s).bladeType = s.bladeType ∧ (applyChecked k n p r c s).ownDraw = s.ownDraw
      ∧ (applyChecked k n p r c s).ownGrant = s.ownGrant := by
  simp [State.cfg, State.station, State.role, State.now, State.joined, State.inService,
    State.bladeType, State.ownDraw, State.ownGrant]

@[simp] theorem applyYardIn_fields (r : SlabRecord) (c : Option Cmd) (s : State) :
    (applyYardIn r c s).pending = s.pending ∧ (applyYardIn r c s).freeCount = s.freeCount
      ∧ (applyYardIn r c s).boot.runState = s.boot.runState ∧ (applyYardIn r c s).boot.phase = s.boot.phase
      ∧ (applyYardIn r c s).boot.shopTime = s.boot.shopTime
      ∧ (applyYardIn r c s).boot.config = s.boot.config ∧ (applyYardIn r c s).boot.epoch = s.boot.epoch
      ∧ (applyYardIn r c s).boot.advanced = s.boot.advanced
      ∧ (applyYardIn r c s).boot.listenOnly = s.boot.listenOnly
      ∧ (applyYardIn r c s).boot.eeprom = s.boot.eeprom
      ∧ (applyYardIn r c s).port.portErrors = s.port.portErrors
      ∧ (applyYardIn r c s).line.driving = s.line.driving
      ∧ (applyYardIn r c s).line.framesSent = s.line.framesSent
      ∧ (applyYardIn r c s).line.deferrals = s.line.deferrals
      ∧ (applyYardIn r c s).line.receiveErrors = s.line.receiveErrors
      ∧ (applyYardIn r c s).line.midFrame = s.line.midFrame
      ∧ (applyYardIn r c s).stock.seqNext = s.stock.seqNext
      ∧ (applyYardIn r c s).stock.answerBatch = s.stock.answerBatch
      ∧ (applyYardIn r c s).stock.answerTouched = s.stock.answerTouched
      ∧ (applyYardIn r c s).cut.blade = s.cut.blade ∧ (applyYardIn r c s).cut.parked = s.cut.parked
      ∧ (applyYardIn r c s).cut.priming = s.cut.priming
      ∧ (applyYardIn r c s).cut.splitLeft = s.cut.splitLeft ∧ (applyYardIn r c s).water = s.water
      ∧ (applyYardIn r c s).plant = s.plant ∧ (applyYardIn r c s).cost = s.cost := by
  unfold applyYardIn
  try dsimp only
  (repeat' split) <;> simp

@[simp] theorem applyYardIn_views (r : SlabRecord) (c : Option Cmd) (s : State) :
    (applyYardIn r c s).cfg = s.cfg ∧ (applyYardIn r c s).station = s.station
      ∧ (applyYardIn r c s).role = s.role ∧ (applyYardIn r c s).now = s.now
      ∧ (applyYardIn r c s).joined = s.joined ∧ (applyYardIn r c s).inService = s.inService
      ∧ (applyYardIn r c s).bladeType = s.bladeType ∧ (applyYardIn r c s).ownDraw = s.ownDraw
      ∧ (applyYardIn r c s).ownGrant = s.ownGrant ∧ (applyYardIn r c s).jobEntry = s.jobEntry := by
  simp [State.cfg, State.station, State.role, State.now, State.joined, State.inService,
    State.bladeType, State.ownDraw, State.ownGrant, State.jobEntry, funext_iff]

@[simp] theorem applySplitRecord_fields (n p : Nat) (r : SlabRecord) (s : State) :
    (applySplitRecord n p s r).pending = s.pending ∧ (applySplitRecord n p s r).freeCount = s.freeCount
      ∧ (applySplitRecord n p s r).boot.runState = s.boot.runState
      ∧ (applySplitRecord n p s r).boot.phase = s.boot.phase
      ∧ (applySplitRecord n p s r).boot.shopTime = s.boot.shopTime
      ∧ (applySplitRecord n p s r).boot.config = s.boot.config
      ∧ (applySplitRecord n p s r).boot.epoch = s.boot.epoch
      ∧ (applySplitRecord n p s r).boot.advanced = s.boot.advanced
      ∧ (applySplitRecord n p s r).boot.listenOnly = s.boot.listenOnly
      ∧ (applySplitRecord n p s r).boot.eeprom = s.boot.eeprom
      ∧ (applySplitRecord n p s r).port.portErrors = s.port.portErrors
      ∧ (applySplitRecord n p s r).line.driving = s.line.driving
      ∧ (applySplitRecord n p s r).line.framesSent = s.line.framesSent
      ∧ (applySplitRecord n p s r).line.deferrals = s.line.deferrals
      ∧ (applySplitRecord n p s r).line.receiveErrors = s.line.receiveErrors
      ∧ (applySplitRecord n p s r).line.midFrame = s.line.midFrame
      ∧ (applySplitRecord n p s r).stock.seqNext = s.stock.seqNext
      ∧ (applySplitRecord n p s r).stock.answerBatch = s.stock.answerBatch
      ∧ (applySplitRecord n p s r).stock.answerTouched = s.stock.answerTouched
      ∧ (applySplitRecord n p s r).cut.blade = s.cut.blade
      ∧ (applySplitRecord n p s r).cut.parked = s.cut.parked
      ∧ (applySplitRecord n p s r).cut.priming = s.cut.priming
      ∧ (applySplitRecord n p s r).cut.splitLeft = s.cut.splitLeft
      ∧ (applySplitRecord n p s r).water = s.water ∧ (applySplitRecord n p s r).plant = s.plant
      ∧ (applySplitRecord n p s r).cost.log = s.cost.log
      ∧ (applySplitRecord n p s r).cost.armed = s.cost.armed := by
  unfold applySplitRecord
  try dsimp only
  (repeat' split) <;> simp

@[simp] theorem applySplitRecord_views (n p : Nat) (r : SlabRecord) (s : State) :
    (applySplitRecord n p s r).cfg = s.cfg ∧ (applySplitRecord n p s r).station = s.station
      ∧ (applySplitRecord n p s r).role = s.role ∧ (applySplitRecord n p s r).now = s.now
      ∧ (applySplitRecord n p s r).joined = s.joined ∧ (applySplitRecord n p s r).inService = s.inService
      ∧ (applySplitRecord n p s r).bladeType = s.bladeType ∧ (applySplitRecord n p s r).ownDraw = s.ownDraw
      ∧ (applySplitRecord n p s r).ownGrant = s.ownGrant := by
  simp [State.cfg, State.station, State.role, State.now, State.joined, State.inService,
    State.bladeType, State.ownDraw, State.ownGrant]

@[simp] theorem dropPlan_fields (rs : List SlabRecord) (s : State) :
    (dropPlan rs s).pending = s.pending ∧ (dropPlan rs s).freeCount = s.freeCount
      ∧ (dropPlan rs s).boot = s.boot ∧ (dropPlan rs s).port = s.port ∧ (dropPlan rs s).line = s.line
      ∧ (dropPlan rs s).stock = s.stock ∧ (dropPlan rs s).plan.staging = s.plan.staging
      ∧ (dropPlan rs s).cut = s.cut ∧ (dropPlan rs s).water = s.water ∧ (dropPlan rs s).plant = s.plant
      ∧ (dropPlan rs s).cost = s.cost := by
  unfold dropPlan
  try dsimp only
  (repeat' split) <;> simp

@[simp] theorem dropPlan_views (rs : List SlabRecord) (s : State) :
    (dropPlan rs s).cfg = s.cfg ∧ (dropPlan rs s).station = s.station ∧ (dropPlan rs s).role = s.role
      ∧ (dropPlan rs s).now = s.now ∧ (dropPlan rs s).joined = s.joined
      ∧ (dropPlan rs s).inService = s.inService ∧ (dropPlan rs s).bladeType = s.bladeType
      ∧ (dropPlan rs s).ownDraw = s.ownDraw ∧ (dropPlan rs s).ownGrant = s.ownGrant
      ∧ (dropPlan rs s).slab = s.slab ∧ (dropPlan rs s).jobEntry = s.jobEntry := by
  simp [State.cfg, State.station, State.role, State.now, State.joined, State.inService,
    State.bladeType, State.ownDraw, State.ownGrant, State.slab, State.jobEntry, funext_iff]

@[simp] theorem applySplit_fields (n p : Nat) (rs : List SlabRecord) (s : State) :
    (applySplit n p rs s).pending = s.pending ∧ (applySplit n p rs s).freeCount = s.freeCount
      ∧ (applySplit n p rs s).boot.runState = s.boot.runState
      ∧ (applySplit n p rs s).boot.phase = s.boot.phase
      ∧ (applySplit n p rs s).boot.shopTime = s.boot.shopTime
      ∧ (applySplit n p rs s).boot.config = s.boot.config ∧ (applySplit n p rs s).boot.epoch = s.boot.epoch
      ∧ (applySplit n p rs s).boot.advanced = s.boot.advanced
      ∧ (applySplit n p rs s).boot.listenOnly = s.boot.listenOnly
      ∧ (applySplit n p rs s).boot.eeprom = s.boot.eeprom
      ∧ (applySplit n p rs s).port.portErrors = s.port.portErrors
      ∧ (applySplit n p rs s).line.driving = s.line.driving
      ∧ (applySplit n p rs s).line.framesSent = s.line.framesSent
      ∧ (applySplit n p rs s).line.deferrals = s.line.deferrals
      ∧ (applySplit n p rs s).line.receiveErrors = s.line.receiveErrors
      ∧ (applySplit n p rs s).line.midFrame = s.line.midFrame
      ∧ (applySplit n p rs s).stock.seqNext = s.stock.seqNext
      ∧ (applySplit n p rs s).stock.answerBatch = s.stock.answerBatch
      ∧ (applySplit n p rs s).stock.answerTouched = s.stock.answerTouched
      ∧ (applySplit n p rs s).cut.blade = s.cut.blade ∧ (applySplit n p rs s).cut.parked = s.cut.parked
      ∧ (applySplit n p rs s).cut.priming = s.cut.priming
      ∧ (applySplit n p rs s).cut.splitLeft = s.cut.splitLeft ∧ (applySplit n p rs s).water = s.water
      ∧ (applySplit n p rs s).plant = s.plant ∧ (applySplit n p rs s).cost.log = s.cost.log
      ∧ (applySplit n p rs s).cost.armed = s.cost.armed := by
  unfold applySplit
  exact ⟨foldl_keeps _ (fun t : State => t.pending) (fun t a => by simp) _ _,
    foldl_keeps _ (fun t : State => t.freeCount) (fun t a => by simp) _ _,
    foldl_keeps _ (fun t : State => t.boot.runState) (fun t a => by simp) _ _,
    foldl_keeps _ (fun t : State => t.boot.phase) (fun t a => by simp) _ _,
    foldl_keeps _ (fun t : State => t.boot.shopTime) (fun t a => by simp) _ _,
    foldl_keeps _ (fun t : State => t.boot.config) (fun t a => by simp) _ _,
    foldl_keeps _ (fun t : State => t.boot.epoch) (fun t a => by simp) _ _,
    foldl_keeps _ (fun t : State => t.boot.advanced) (fun t a => by simp) _ _,
    foldl_keeps _ (fun t : State => t.boot.listenOnly) (fun t a => by simp) _ _,
    foldl_keeps _ (fun t : State => t.boot.eeprom) (fun t a => by simp) _ _,
    foldl_keeps _ (fun t : State => t.port.portErrors) (fun t a => by simp) _ _,
    foldl_keeps _ (fun t : State => t.line.driving) (fun t a => by simp) _ _,
    foldl_keeps _ (fun t : State => t.line.framesSent) (fun t a => by simp) _ _,
    foldl_keeps _ (fun t : State => t.line.deferrals) (fun t a => by simp) _ _,
    foldl_keeps _ (fun t : State => t.line.receiveErrors) (fun t a => by simp) _ _,
    foldl_keeps _ (fun t : State => t.line.midFrame) (fun t a => by simp) _ _,
    foldl_keeps _ (fun t : State => t.stock.seqNext) (fun t a => by simp) _ _,
    foldl_keeps _ (fun t : State => t.stock.answerBatch) (fun t a => by simp) _ _,
    foldl_keeps _ (fun t : State => t.stock.answerTouched) (fun t a => by simp) _ _,
    foldl_keeps _ (fun t : State => t.cut.blade) (fun t a => by simp) _ _,
    foldl_keeps _ (fun t : State => t.cut.parked) (fun t a => by simp) _ _,
    foldl_keeps _ (fun t : State => t.cut.priming) (fun t a => by simp) _ _,
    foldl_keeps _ (fun t : State => t.cut.splitLeft) (fun t a => by simp) _ _,
    foldl_keeps _ (fun t : State => t.water) (fun t a => by simp) _ _,
    foldl_keeps _ (fun t : State => t.plant) (fun t a => by simp) _ _,
    foldl_keeps _ (fun t : State => t.cost.log) (fun t a => by simp) _ _,
    foldl_keeps _ (fun t : State => t.cost.armed) (fun t a => by simp) _ _⟩

@[simp] theorem applySplit_views (n p : Nat) (rs : List SlabRecord) (s : State) :
    (applySplit n p rs s).cfg = s.cfg ∧ (applySplit n p rs s).station = s.station
      ∧ (applySplit n p rs s).role = s.role ∧ (applySplit n p rs s).now = s.now
      ∧ (applySplit n p rs s).joined = s.joined ∧ (applySplit n p rs s).inService = s.inService
      ∧ (applySplit n p rs s).bladeType = s.bladeType ∧ (applySplit n p rs s).ownDraw = s.ownDraw
      ∧ (applySplit n p rs s).ownGrant = s.ownGrant := by
  simp [State.cfg, State.station, State.role, State.now, State.joined, State.inService,
    State.bladeType, State.ownDraw, State.ownGrant]

@[simp] theorem ownSplit_fields (p : Nat) (rs : List SlabRecord) (s : State) :
    (ownSplit p rs s).pending = s.pending ∧ (ownSplit p rs s).freeCount = s.freeCount
      ∧ (ownSplit p rs s).boot.runState = s.boot.runState ∧ (ownSplit p rs s).boot.phase = s.boot.phase
      ∧ (ownSplit p rs s).boot.shopTime = s.boot.shopTime ∧ (ownSplit p rs s).boot.config = s.boot.config
      ∧ (ownSplit p rs s).boot.epoch = s.boot.epoch ∧ (ownSplit p rs s).boot.advanced = s.boot.advanced
      ∧ (ownSplit p rs s).boot.listenOnly = s.boot.listenOnly
      ∧ (ownSplit p rs s).boot.eeprom = s.boot.eeprom
      ∧ (ownSplit p rs s).port.portErrors = s.port.portErrors
      ∧ (ownSplit p rs s).line.driving = s.line.driving
      ∧ (ownSplit p rs s).line.framesSent = s.line.framesSent
      ∧ (ownSplit p rs s).line.deferrals = s.line.deferrals
      ∧ (ownSplit p rs s).line.receiveErrors = s.line.receiveErrors
      ∧ (ownSplit p rs s).line.midFrame = s.line.midFrame
      ∧ (ownSplit p rs s).stock.seqNext = s.stock.seqNext
      ∧ (ownSplit p rs s).stock.answerBatch = s.stock.answerBatch
      ∧ (ownSplit p rs s).stock.answerTouched = s.stock.answerTouched
      ∧ (ownSplit p rs s).cut.blade = s.cut.blade ∧ (ownSplit p rs s).cut.parked = s.cut.parked
      ∧ (ownSplit p rs s).cut.priming = s.cut.priming ∧ (ownSplit p rs s).water = s.water
      ∧ (ownSplit p rs s).plant = s.plant ∧ (ownSplit p rs s).cost.log = s.cost.log
      ∧ (ownSplit p rs s).cost.armed = s.cost.armed := by
  unfold ownSplit
  try dsimp only
  (repeat' split) <;> simp

@[simp] theorem ownSplit_views (p : Nat) (rs : List SlabRecord) (s : State) :
    (ownSplit p rs s).cfg = s.cfg ∧ (ownSplit p rs s).station = s.station ∧ (ownSplit p rs s).role = s.role
      ∧ (ownSplit p rs s).now = s.now ∧ (ownSplit p rs s).joined = s.joined
      ∧ (ownSplit p rs s).inService = s.inService ∧ (ownSplit p rs s).bladeType = s.bladeType
      ∧ (ownSplit p rs s).ownDraw = s.ownDraw ∧ (ownSplit p rs s).ownGrant = s.ownGrant := by
  simp [State.cfg, State.station, State.role, State.now, State.joined, State.inService,
    State.bladeType, State.ownDraw, State.ownGrant]

@[simp] theorem applyStockState_fields (rs : List SlabRecord) (s : State) :
    (applyStockState rs s).pending = s.pending ∧ (applyStockState rs s).freeCount = s.freeCount
      ∧ (applyStockState rs s).boot.runState = s.boot.runState
      ∧ (applyStockState rs s).boot.phase = s.boot.phase
      ∧ (applyStockState rs s).boot.shopTime = s.boot.shopTime
      ∧ (applyStockState rs s).boot.config = s.boot.config
      ∧ (applyStockState rs s).boot.epoch = s.boot.epoch
      ∧ (applyStockState rs s).boot.advanced = s.boot.advanced
      ∧ (applyStockState rs s).boot.listenOnly = s.boot.listenOnly
      ∧ (applyStockState rs s).boot.eeprom = s.boot.eeprom
      ∧ (applyStockState rs s).port.outstanding = s.port.outstanding
      ∧ (applyStockState rs s).port.portErrors = s.port.portErrors
      ∧ (applyStockState rs s).line.driving = s.line.driving
      ∧ (applyStockState rs s).line.framesSent = s.line.framesSent
      ∧ (applyStockState rs s).line.deferrals = s.line.deferrals
      ∧ (applyStockState rs s).line.receiveErrors = s.line.receiveErrors
      ∧ (applyStockState rs s).line.midFrame = s.line.midFrame
      ∧ (applyStockState rs s).stock.seqNext = s.stock.seqNext
      ∧ (applyStockState rs s).stock.answerBatch = s.stock.answerBatch
      ∧ (applyStockState rs s).stock.answerTouched = s.stock.answerTouched
      ∧ (applyStockState rs s).cut.blade = s.cut.blade ∧ (applyStockState rs s).cut.parked = s.cut.parked
      ∧ (applyStockState rs s).cut.priming = s.cut.priming
      ∧ (applyStockState rs s).cut.splitLeft = s.cut.splitLeft ∧ (applyStockState rs s).water = s.water
      ∧ (applyStockState rs s).plant = s.plant ∧ (applyStockState rs s).cost = s.cost := by
  unfold applyStockState
  exact ⟨foldl_keeps _ (fun t : State => t.pending) (fun t a => by simp) _ _,
    foldl_keeps _ (fun t : State => t.freeCount) (fun t a => by simp) _ _,
    foldl_keeps _ (fun t : State => t.boot.runState) (fun t a => by simp) _ _,
    foldl_keeps _ (fun t : State => t.boot.phase) (fun t a => by simp) _ _,
    foldl_keeps _ (fun t : State => t.boot.shopTime) (fun t a => by simp) _ _,
    foldl_keeps _ (fun t : State => t.boot.config) (fun t a => by simp) _ _,
    foldl_keeps _ (fun t : State => t.boot.epoch) (fun t a => by simp) _ _,
    foldl_keeps _ (fun t : State => t.boot.advanced) (fun t a => by simp) _ _,
    foldl_keeps _ (fun t : State => t.boot.listenOnly) (fun t a => by simp) _ _,
    foldl_keeps _ (fun t : State => t.boot.eeprom) (fun t a => by simp) _ _,
    foldl_keeps _ (fun t : State => t.port.outstanding) (fun t a => by simp) _ _,
    foldl_keeps _ (fun t : State => t.port.portErrors) (fun t a => by simp) _ _,
    foldl_keeps _ (fun t : State => t.line.driving) (fun t a => by simp) _ _,
    foldl_keeps _ (fun t : State => t.line.framesSent) (fun t a => by simp) _ _,
    foldl_keeps _ (fun t : State => t.line.deferrals) (fun t a => by simp) _ _,
    foldl_keeps _ (fun t : State => t.line.receiveErrors) (fun t a => by simp) _ _,
    foldl_keeps _ (fun t : State => t.line.midFrame) (fun t a => by simp) _ _,
    foldl_keeps _ (fun t : State => t.stock.seqNext) (fun t a => by simp) _ _,
    foldl_keeps _ (fun t : State => t.stock.answerBatch) (fun t a => by simp) _ _,
    foldl_keeps _ (fun t : State => t.stock.answerTouched) (fun t a => by simp) _ _,
    foldl_keeps _ (fun t : State => t.cut.blade) (fun t a => by simp) _ _,
    foldl_keeps _ (fun t : State => t.cut.parked) (fun t a => by simp) _ _,
    foldl_keeps _ (fun t : State => t.cut.priming) (fun t a => by simp) _ _,
    foldl_keeps _ (fun t : State => t.cut.splitLeft) (fun t a => by simp) _ _,
    foldl_keeps _ (fun t : State => t.water) (fun t a => by simp) _ _,
    foldl_keeps _ (fun t : State => t.plant) (fun t a => by simp) _ _,
    foldl_keeps _ (fun t : State => t.cost) (fun t a => by simp) _ _⟩

@[simp] theorem applyStockState_views (rs : List SlabRecord) (s : State) :
    (applyStockState rs s).cfg = s.cfg ∧ (applyStockState rs s).station = s.station
      ∧ (applyStockState rs s).role = s.role ∧ (applyStockState rs s).now = s.now
      ∧ (applyStockState rs s).joined = s.joined ∧ (applyStockState rs s).inService = s.inService
      ∧ (applyStockState rs s).bladeType = s.bladeType ∧ (applyStockState rs s).ownDraw = s.ownDraw
      ∧ (applyStockState rs s).ownGrant = s.ownGrant ∧ (applyStockState rs s).jobEntry = s.jobEntry := by
  simp [State.cfg, State.station, State.role, State.now, State.joined, State.inService,
    State.bladeType, State.ownDraw, State.ownGrant, State.jobEntry, funext_iff]

@[simp] theorem restartStock_fields (n : Nat) (s : State) :
    (restartStock n s).pending = s.pending ∧ (restartStock n s).freeCount = s.freeCount
      ∧ (restartStock n s).boot = s.boot ∧ (restartStock n s).port = s.port
      ∧ (restartStock n s).line = s.line ∧ (restartStock n s).stock.seqNext = s.stock.seqNext
      ∧ (restartStock n s).stock.window = s.stock.window
      ∧ (restartStock n s).stock.heldExpiry = s.stock.heldExpiry
      ∧ (restartStock n s).stock.answerBatch = s.stock.answerBatch
      ∧ (restartStock n s).stock.answerTouched = s.stock.answerTouched ∧ (restartStock n s).plan = s.plan
      ∧ (restartStock n s).cut = s.cut ∧ (restartStock n s).water = s.water
      ∧ (restartStock n s).plant = s.plant ∧ (restartStock n s).cost = s.cost := by
  unfold restartStock
  try dsimp only
  (repeat' split) <;> simp

@[simp] theorem restartStock_views (n : Nat) (s : State) :
    (restartStock n s).cfg = s.cfg ∧ (restartStock n s).station = s.station
      ∧ (restartStock n s).role = s.role ∧ (restartStock n s).now = s.now
      ∧ (restartStock n s).joined = s.joined ∧ (restartStock n s).inService = s.inService
      ∧ (restartStock n s).bladeType = s.bladeType ∧ (restartStock n s).ownDraw = s.ownDraw
      ∧ (restartStock n s).ownGrant = s.ownGrant ∧ (restartStock n s).jobEntry = s.jobEntry := by
  simp [State.cfg, State.station, State.role, State.now, State.joined, State.inService,
    State.bladeType, State.ownDraw, State.ownGrant, State.jobEntry, funext_iff]

@[simp] theorem applyStockAsk_fields (n : Nat) (s : State) :
    (applyStockAsk n s).pending = s.pending ∧ (applyStockAsk n s).freeCount = s.freeCount
      ∧ (applyStockAsk n s).boot = s.boot ∧ (applyStockAsk n s).port = s.port
      ∧ (applyStockAsk n s).line.driving = s.line.driving
      ∧ (applyStockAsk n s).line.framesSent = s.line.framesSent
      ∧ (applyStockAsk n s).line.deferrals = s.line.deferrals
      ∧ (applyStockAsk n s).line.receiveErrors = s.line.receiveErrors
      ∧ (applyStockAsk n s).line.midFrame = s.line.midFrame
      ∧ (applyStockAsk n s).stock.table = s.stock.table
      ∧ (applyStockAsk n s).stock.seqNext = s.stock.seqNext
      ∧ (applyStockAsk n s).stock.window = s.stock.window
      ∧ (applyStockAsk n s).stock.heldExpiry = s.stock.heldExpiry ∧ (applyStockAsk n s).plan = s.plan
      ∧ (applyStockAsk n s).cut = s.cut ∧ (applyStockAsk n s).water = s.water
      ∧ (applyStockAsk n s).plant = s.plant ∧ (applyStockAsk n s).cost = s.cost := by
  unfold applyStockAsk
  try dsimp only
  (repeat' split) <;> simp

@[simp] theorem applyStockAsk_views (n : Nat) (s : State) :
    (applyStockAsk n s).cfg = s.cfg ∧ (applyStockAsk n s).station = s.station
      ∧ (applyStockAsk n s).role = s.role ∧ (applyStockAsk n s).now = s.now
      ∧ (applyStockAsk n s).joined = s.joined ∧ (applyStockAsk n s).inService = s.inService
      ∧ (applyStockAsk n s).bladeType = s.bladeType ∧ (applyStockAsk n s).ownDraw = s.ownDraw
      ∧ (applyStockAsk n s).ownGrant = s.ownGrant ∧ (applyStockAsk n s).slab = s.slab
      ∧ (applyStockAsk n s).jobEntry = s.jobEntry := by
  simp [State.cfg, State.station, State.role, State.now, State.joined, State.inService,
    State.bladeType, State.ownDraw, State.ownGrant, State.slab, State.jobEntry, funext_iff]

@[simp] theorem lapse_fields (s : State) :
    (lapse s).pending = s.pending ∧ (lapse s).freeCount = s.freeCount ∧ (lapse s).boot = s.boot
      ∧ (lapse s).port.outstanding = s.port.outstanding ∧ (lapse s).port.portErrors = s.port.portErrors
      ∧ (lapse s).line.driving = s.line.driving ∧ (lapse s).line.framesSent = s.line.framesSent
      ∧ (lapse s).line.deferrals = s.line.deferrals ∧ (lapse s).line.receiveErrors = s.line.receiveErrors
      ∧ (lapse s).line.midFrame = s.line.midFrame
      ∧ (lapse s).stock = s.stock ∧ (lapse s).plan = s.plan ∧ (lapse s).cut = s.cut
      ∧ (lapse s).water = s.water ∧ (lapse s).plant = s.plant ∧ (lapse s).cost = s.cost := by
  unfold lapse
  try dsimp only
  (repeat' split) <;> simp

@[simp] theorem lapse_views (s : State) :
    (lapse s).cfg = s.cfg ∧ (lapse s).station = s.station ∧ (lapse s).role = s.role ∧ (lapse s).now = s.now
      ∧ (lapse s).joined = s.joined ∧ (lapse s).inService = s.inService ∧ (lapse s).bladeType = s.bladeType
      ∧ (lapse s).ownDraw = s.ownDraw ∧ (lapse s).ownGrant = s.ownGrant ∧ (lapse s).slab = s.slab
      ∧ (lapse s).jobEntry = s.jobEntry := by
  simp [State.cfg, State.station, State.role, State.now, State.joined, State.inService,
    State.bladeType, State.ownDraw, State.ownGrant, State.slab, State.jobEntry, funext_iff]

@[simp] theorem windowExpired_fields (s : State) :
    (windowExpired s).pending = s.pending ∧ (windowExpired s).freeCount = s.freeCount
      ∧ (windowExpired s).boot = s.boot ∧ (windowExpired s).port.outstanding = s.port.outstanding
      ∧ (windowExpired s).port.portErrors = s.port.portErrors
      ∧ (windowExpired s).line.driving = s.line.driving
      ∧ (windowExpired s).line.framesSent = s.line.framesSent
      ∧ (windowExpired s).line.deferrals = s.line.deferrals
      ∧ (windowExpired s).line.receiveErrors = s.line.receiveErrors
      ∧ (windowExpired s).line.midFrame = s.line.midFrame
      ∧ (windowExpired s).stock.table = s.stock.table ∧ (windowExpired s).stock.seqNext = s.stock.seqNext
      ∧ (windowExpired s).stock.answerBatch = s.stock.answerBatch
      ∧ (windowExpired s).stock.answerTouched = s.stock.answerTouched ∧ (windowExpired s).plan = s.plan
      ∧ (windowExpired s).cut = s.cut ∧ (windowExpired s).water = s.water
      ∧ (windowExpired s).plant = s.plant ∧ (windowExpired s).cost = s.cost := by
  unfold windowExpired
  try dsimp only
  (repeat' split) <;> simp

@[simp] theorem windowExpired_views (s : State) :
    (windowExpired s).cfg = s.cfg ∧ (windowExpired s).station = s.station ∧ (windowExpired s).role = s.role
      ∧ (windowExpired s).now = s.now ∧ (windowExpired s).joined = s.joined
      ∧ (windowExpired s).inService = s.inService ∧ (windowExpired s).bladeType = s.bladeType
      ∧ (windowExpired s).ownDraw = s.ownDraw ∧ (windowExpired s).ownGrant = s.ownGrant
      ∧ (windowExpired s).slab = s.slab ∧ (windowExpired s).jobEntry = s.jobEntry := by
  simp [State.cfg, State.station, State.role, State.now, State.joined, State.inService,
    State.bladeType, State.ownDraw, State.ownGrant, State.slab, State.jobEntry, funext_iff]

@[simp] theorem releaseExpiry_fields (e : QEntry) (s : State) :
    (releaseExpiry e s).pending = s.pending ∧ (releaseExpiry e s).freeCount = s.freeCount
      ∧ (releaseExpiry e s).boot = s.boot ∧ (releaseExpiry e s).port.outstanding = s.port.outstanding
      ∧ (releaseExpiry e s).port.portErrors = s.port.portErrors
      ∧ (releaseExpiry e s).line.driving = s.line.driving
      ∧ (releaseExpiry e s).line.framesSent = s.line.framesSent
      ∧ (releaseExpiry e s).line.deferrals = s.line.deferrals
      ∧ (releaseExpiry e s).line.receiveErrors = s.line.receiveErrors
      ∧ (releaseExpiry e s).line.midFrame = s.line.midFrame
      ∧ (releaseExpiry e s).stock.table = s.stock.table
      ∧ (releaseExpiry e s).stock.seqNext = s.stock.seqNext
      ∧ (releaseExpiry e s).stock.window = s.stock.window
      ∧ (releaseExpiry e s).stock.answerBatch = s.stock.answerBatch
      ∧ (releaseExpiry e s).stock.answerTouched = s.stock.answerTouched ∧ (releaseExpiry e s).plan = s.plan
      ∧ (releaseExpiry e s).cut = s.cut ∧ (releaseExpiry e s).water = s.water
      ∧ (releaseExpiry e s).plant = s.plant ∧ (releaseExpiry e s).cost = s.cost := by
  unfold releaseExpiry
  try dsimp only
  (repeat' split) <;> simp

@[simp] theorem releaseExpiry_views (e : QEntry) (s : State) :
    (releaseExpiry e s).cfg = s.cfg ∧ (releaseExpiry e s).station = s.station
      ∧ (releaseExpiry e s).role = s.role ∧ (releaseExpiry e s).now = s.now
      ∧ (releaseExpiry e s).joined = s.joined ∧ (releaseExpiry e s).inService = s.inService
      ∧ (releaseExpiry e s).bladeType = s.bladeType ∧ (releaseExpiry e s).ownDraw = s.ownDraw
      ∧ (releaseExpiry e s).ownGrant = s.ownGrant ∧ (releaseExpiry e s).slab = s.slab
      ∧ (releaseExpiry e s).jobEntry = s.jobEntry := by
  simp [State.cfg, State.station, State.role, State.now, State.joined, State.inService,
    State.bladeType, State.ownDraw, State.ownGrant, State.slab, State.jobEntry, funext_iff]

@[simp] theorem orphanExpired_fields (i : SlabId) (s : State) :
    (orphanExpired i s).pending = s.pending ∧ (orphanExpired i s).freeCount = s.freeCount
      ∧ (orphanExpired i s).boot = s.boot ∧ (orphanExpired i s).port = s.port
      ∧ (orphanExpired i s).line.driving = s.line.driving
      ∧ (orphanExpired i s).line.framesSent = s.line.framesSent
      ∧ (orphanExpired i s).line.deferrals = s.line.deferrals
      ∧ (orphanExpired i s).line.receiveErrors = s.line.receiveErrors
      ∧ (orphanExpired i s).line.midFrame = s.line.midFrame
      ∧ (orphanExpired i s).stock.seqNext = s.stock.seqNext
      ∧ (orphanExpired i s).stock.window = s.stock.window
      ∧ (orphanExpired i s).stock.heldExpiry = s.stock.heldExpiry
      ∧ (orphanExpired i s).stock.answerBatch = s.stock.answerBatch
      ∧ (orphanExpired i s).stock.answerTouched = s.stock.answerTouched ∧ (orphanExpired i s).plan = s.plan
      ∧ (orphanExpired i s).cut = s.cut ∧ (orphanExpired i s).water = s.water
      ∧ (orphanExpired i s).plant = s.plant ∧ (orphanExpired i s).cost = s.cost := by
  unfold orphanExpired
  try dsimp only
  (repeat' split) <;> simp

@[simp] theorem orphanExpired_views (i : SlabId) (s : State) :
    (orphanExpired i s).cfg = s.cfg ∧ (orphanExpired i s).station = s.station
      ∧ (orphanExpired i s).role = s.role ∧ (orphanExpired i s).now = s.now
      ∧ (orphanExpired i s).joined = s.joined ∧ (orphanExpired i s).inService = s.inService
      ∧ (orphanExpired i s).bladeType = s.bladeType ∧ (orphanExpired i s).ownDraw = s.ownDraw
      ∧ (orphanExpired i s).ownGrant = s.ownGrant ∧ (orphanExpired i s).jobEntry = s.jobEntry := by
  simp [State.cfg, State.station, State.role, State.now, State.joined, State.inService,
    State.bladeType, State.ownDraw, State.ownGrant, State.jobEntry, funext_iff]

end Sys2Proof.Machine
end

