-- ==== Sys2Proof/Laws/FrameCompletion.lean ====
section
/-! SUPPORT. What closing a segment and completing a plan leaves unchanged: for each operation one lemma of the fields it does not
touch, and one of what is read from them. -/

namespace Sys2Proof.Machine

@[simp] theorem chargeSegment_fields (p : Plan) (g : Segment) (n : Nat) (s : State) :
    (chargeSegment p g n s).pending = s.pending ∧ (chargeSegment p g n s).freeCount = s.freeCount
      ∧ (chargeSegment p g n s).boot.runState = s.boot.runState
      ∧ (chargeSegment p g n s).boot.phase = s.boot.phase
      ∧ (chargeSegment p g n s).boot.shopTime = s.boot.shopTime
      ∧ (chargeSegment p g n s).boot.config = s.boot.config
      ∧ (chargeSegment p g n s).boot.epoch = s.boot.epoch
      ∧ (chargeSegment p g n s).boot.advanced = s.boot.advanced
      ∧ (chargeSegment p g n s).boot.listenOnly = s.boot.listenOnly
      ∧ (chargeSegment p g n s).boot.eeprom = s.boot.eeprom
      ∧ (chargeSegment p g n s).port.outstanding = s.port.outstanding
      ∧ (chargeSegment p g n s).port.portErrors = s.port.portErrors ∧ (chargeSegment p g n s).line = s.line
      ∧ (chargeSegment p g n s).stock = s.stock ∧ (chargeSegment p g n s).plan.staging = s.plan.staging
      ∧ (chargeSegment p g n s).cut.state = s.cut.state ∧ (chargeSegment p g n s).cut.held = s.cut.held
      ∧ (chargeSegment p g n s).cut.waiting = s.cut.waiting
      ∧ (chargeSegment p g n s).cut.parked = s.cut.parked
      ∧ (chargeSegment p g n s).cut.priming = s.cut.priming
      ∧ (chargeSegment p g n s).cut.splitLeft = s.cut.splitLeft ∧ (chargeSegment p g n s).water = s.water
      ∧ (chargeSegment p g n s).plant = s.plant := by
  simp [chargeSegment]

@[simp] theorem chargeSegment_views (p : Plan) (g : Segment) (n : Nat) (s : State) :
    (chargeSegment p g n s).cfg = s.cfg ∧ (chargeSegment p g n s).station = s.station
      ∧ (chargeSegment p g n s).role = s.role ∧ (chargeSegment p g n s).now = s.now
      ∧ (chargeSegment p g n s).joined = s.joined ∧ (chargeSegment p g n s).inService = s.inService
      ∧ (chargeSegment p g n s).ownDraw = s.ownDraw ∧ (chargeSegment p g n s).ownGrant = s.ownGrant
      ∧ (chargeSegment p g n s).slab = s.slab := by
  simp [State.cfg, State.station, State.role, State.now, State.joined, State.inService, State.ownDraw, State.ownGrant, State.slab, funext_iff]

@[simp] theorem closeSegment_fields (n : Nat) (s : State) :
    (closeSegment n s).pending = s.pending ∧ (closeSegment n s).freeCount = s.freeCount
      ∧ (closeSegment n s).boot.runState = s.boot.runState ∧ (closeSegment n s).boot.phase = s.boot.phase
      ∧ (closeSegment n s).boot.shopTime = s.boot.shopTime ∧ (closeSegment n s).boot.config = s.boot.config
      ∧ (closeSegment n s).boot.epoch = s.boot.epoch ∧ (closeSegment n s).boot.advanced = s.boot.advanced
      ∧ (closeSegment n s).boot.listenOnly = s.boot.listenOnly
      ∧ (closeSegment n s).boot.eeprom = s.boot.eeprom
      ∧ (closeSegment n s).port.outstanding = s.port.outstanding
      ∧ (closeSegment n s).port.portErrors = s.port.portErrors ∧ (closeSegment n s).line = s.line
      ∧ (closeSegment n s).stock = s.stock ∧ (closeSegment n s).plan.staging = s.plan.staging
      ∧ (closeSegment n s).cut.state = s.cut.state ∧ (closeSegment n s).cut.held = s.cut.held
      ∧ (closeSegment n s).cut.waiting = s.cut.waiting ∧ (closeSegment n s).cut.parked = s.cut.parked
      ∧ (closeSegment n s).cut.priming = s.cut.priming ∧ (closeSegment n s).cut.splitLeft = s.cut.splitLeft
      ∧ (closeSegment n s).water = s.water ∧ (closeSegment n s).plant = s.plant := by
  unfold closeSegment
  try dsimp only
  (repeat' split) <;> simp

@[simp] theorem closeSegment_views (n : Nat) (s : State) :
    (closeSegment n s).cfg = s.cfg ∧ (closeSegment n s).station = s.station
      ∧ (closeSegment n s).role = s.role ∧ (closeSegment n s).now = s.now
      ∧ (closeSegment n s).joined = s.joined ∧ (closeSegment n s).inService = s.inService
      ∧ (closeSegment n s).ownDraw = s.ownDraw ∧ (closeSegment n s).ownGrant = s.ownGrant
      ∧ (closeSegment n s).slab = s.slab := by
  simp [State.cfg, State.station, State.role, State.now, State.joined, State.inService, State.ownDraw, State.ownGrant, State.slab, funext_iff]

@[simp] theorem chargePieces_fields (i : SlabId) (os : List Outcome) (s : State) :
    (chargePieces i os s).pending = s.pending ∧ (chargePieces i os s).freeCount = s.freeCount
      ∧ (chargePieces i os s).boot.runState = s.boot.runState
      ∧ (chargePieces i os s).boot.phase = s.boot.phase
      ∧ (chargePieces i os s).boot.shopTime = s.boot.shopTime
      ∧ (chargePieces i os s).boot.config = s.boot.config ∧ (chargePieces i os s).boot.epoch = s.boot.epoch
      ∧ (chargePieces i os s).boot.advanced = s.boot.advanced
      ∧ (chargePieces i os s).boot.listenOnly = s.boot.listenOnly
      ∧ (chargePieces i os s).boot.eeprom = s.boot.eeprom
      ∧ (chargePieces i os s).port.outstanding = s.port.outstanding
      ∧ (chargePieces i os s).port.portErrors = s.port.portErrors ∧ (chargePieces i os s).line = s.line
      ∧ (chargePieces i os s).stock = s.stock ∧ (chargePieces i os s).plan = s.plan
      ∧ (chargePieces i os s).cut = s.cut ∧ (chargePieces i os s).water = s.water
      ∧ (chargePieces i os s).plant = s.plant := by
  unfold chargePieces
  exact ⟨foldl_keeps _ (fun t : State => t.pending) (fun t a => by split <;> simp) _ _,
    foldl_keeps _ (fun t : State => t.freeCount) (fun t a => by split <;> simp) _ _,
    foldl_keeps _ (fun t : State => t.boot.runState) (fun t a => by split <;> simp) _ _,
    foldl_keeps _ (fun t : State => t.boot.phase) (fun t a => by split <;> simp) _ _,
    foldl_keeps _ (fun t : State => t.boot.shopTime) (fun t a => by split <;> simp) _ _,
    foldl_keeps _ (fun t : State => t.boot.config) (fun t a => by split <;> simp) _ _,
    foldl_keeps _ (fun t : State => t.boot.epoch) (fun t a => by split <;> simp) _ _,
    foldl_keeps _ (fun t : State => t.boot.advanced) (fun t a => by split <;> simp) _ _,
    foldl_keeps _ (fun t : State => t.boot.listenOnly) (fun t a => by split <;> simp) _ _,
    foldl_keeps _ (fun t : State => t.boot.eeprom) (fun t a => by split <;> simp) _ _,
    foldl_keeps _ (fun t : State => t.port.outstanding) (fun t a => by split <;> simp) _ _,
    foldl_keeps _ (fun t : State => t.port.portErrors) (fun t a => by split <;> simp) _ _,
    foldl_keeps _ (fun t : State => t.line) (fun t a => by split <;> simp) _ _,
    foldl_keeps _ (fun t : State => t.stock) (fun t a => by split <;> simp) _ _,
    foldl_keeps _ (fun t : State => t.plan) (fun t a => by split <;> simp) _ _,
    foldl_keeps _ (fun t : State => t.cut) (fun t a => by split <;> simp) _ _,
    foldl_keeps _ (fun t : State => t.water) (fun t a => by split <;> simp) _ _,
    foldl_keeps _ (fun t : State => t.plant) (fun t a => by split <;> simp) _ _⟩

@[simp] theorem chargePieces_views (i : SlabId) (os : List Outcome) (s : State) :
    (chargePieces i os s).cfg = s.cfg ∧ (chargePieces i os s).station = s.station
      ∧ (chargePieces i os s).role = s.role ∧ (chargePieces i os s).now = s.now
      ∧ (chargePieces i os s).joined = s.joined ∧ (chargePieces i os s).inService = s.inService
      ∧ (chargePieces i os s).bladeType = s.bladeType ∧ (chargePieces i os s).ownDraw = s.ownDraw
      ∧ (chargePieces i os s).ownGrant = s.ownGrant ∧ (chargePieces i os s).slab = s.slab := by
  simp [State.cfg, State.station, State.role, State.now, State.joined, State.inService,
    State.bladeType, State.ownDraw, State.ownGrant, State.slab, funext_iff]

@[simp] theorem chargeSplit_fields (p : Plan) (w : SplitWork) (s : State) :
    (chargeSplit p w s).pending = s.pending ∧ (chargeSplit p w s).freeCount = s.freeCount
      ∧ (chargeSplit p w s).boot.runState = s.boot.runState ∧ (chargeSplit p w s).boot.phase = s.boot.phase
      ∧ (chargeSplit p w s).boot.shopTime = s.boot.shopTime
      ∧ (chargeSplit p w s).boot.config = s.boot.config ∧ (chargeSplit p w s).boot.epoch = s.boot.epoch
      ∧ (chargeSplit p w s).boot.advanced = s.boot.advanced
      ∧ (chargeSplit p w s).boot.listenOnly = s.boot.listenOnly
      ∧ (chargeSplit p w s).boot.eeprom = s.boot.eeprom
      ∧ (chargeSplit p w s).port.outstanding = s.port.outstanding
      ∧ (chargeSplit p w s).port.portErrors = s.port.portErrors ∧ (chargeSplit p w s).line = s.line
      ∧ (chargeSplit p w s).stock = s.stock ∧ (chargeSplit p w s).plan = s.plan
      ∧ (chargeSplit p w s).cut = s.cut ∧ (chargeSplit p w s).water = s.water
      ∧ (chargeSplit p w s).plant = s.plant := by
  unfold chargeSplit
  try dsimp only
  (repeat' split) <;> simp

@[simp] theorem chargeSplit_views (p : Plan) (w : SplitWork) (s : State) :
    (chargeSplit p w s).cfg = s.cfg ∧ (chargeSplit p w s).station = s.station
      ∧ (chargeSplit p w s).role = s.role ∧ (chargeSplit p w s).now = s.now
      ∧ (chargeSplit p w s).joined = s.joined ∧ (chargeSplit p w s).inService = s.inService
      ∧ (chargeSplit p w s).bladeType = s.bladeType ∧ (chargeSplit p w s).ownDraw = s.ownDraw
      ∧ (chargeSplit p w s).ownGrant = s.ownGrant ∧ (chargeSplit p w s).slab = s.slab := by
  simp [State.cfg, State.station, State.role, State.now, State.joined, State.inService,
    State.bladeType, State.ownDraw, State.ownGrant, State.slab, funext_iff]

@[simp] theorem writeSplit_fields (p : Nat) (fs : List (List SlabRecord)) (s : State) :
    (writeSplit p fs s).pending = s.pending ∧ (writeSplit p fs s).freeCount = s.freeCount
      ∧ (writeSplit p fs s).boot.runState = s.boot.runState ∧ (writeSplit p fs s).boot.phase = s.boot.phase
      ∧ (writeSplit p fs s).boot.shopTime = s.boot.shopTime
      ∧ (writeSplit p fs s).boot.config = s.boot.config ∧ (writeSplit p fs s).boot.epoch = s.boot.epoch
      ∧ (writeSplit p fs s).boot.advanced = s.boot.advanced
      ∧ (writeSplit p fs s).boot.listenOnly = s.boot.listenOnly
      ∧ (writeSplit p fs s).boot.eeprom = s.boot.eeprom
      ∧ (writeSplit p fs s).port.portErrors = s.port.portErrors
      ∧ (writeSplit p fs s).line.driving = s.line.driving
      ∧ (writeSplit p fs s).line.framesSent = s.line.framesSent
      ∧ (writeSplit p fs s).line.deferrals = s.line.deferrals
      ∧ (writeSplit p fs s).line.receiveErrors = s.line.receiveErrors
      ∧ (writeSplit p fs s).line.midFrame = s.line.midFrame
      ∧ (writeSplit p fs s).stock.seqNext = s.stock.seqNext
      ∧ (writeSplit p fs s).stock.answerBatch = s.stock.answerBatch
      ∧ (writeSplit p fs s).stock.answerTouched = s.stock.answerTouched
      ∧ (writeSplit p fs s).cut.blade = s.cut.blade ∧ (writeSplit p fs s).cut.parked = s.cut.parked
      ∧ (writeSplit p fs s).cut.priming = s.cut.priming ∧ (writeSplit p fs s).water = s.water
      ∧ (writeSplit p fs s).plant = s.plant ∧ (writeSplit p fs s).cost.log = s.cost.log
      ∧ (writeSplit p fs s).cost.armed = s.cost.armed := by
  unfold writeSplit
  exact ⟨foldl_keeps _ (fun t : State => t.pending) (fun t a => by simp) _ _,
    foldl_keeps _ (fun t : State => t.freeCount) (fun t a => by simp) _ _,
    foldl_keeps _ (fun t : State => t.boot.runState) (fun t a => by simp) _ _,
    foldl_keeps _ (fun t : State => t.boot.phase) (fun t a => by simp) _ _,
    foldl_keeps _ (fun t : State => t.boot.shopTime) (fun t a => by simp) _ _,
    foldl_keeps _ (fun t : State => t.boot.config) (fun t a => by simp) _ _,
    foldl_keeps _ (fun t : State => t.boot.epoch) (fun t a => by simp) _ _,
    foldl_keeps _ (fun t : State => t.boot.advanced) (fun t a => by simp) _ _,
    foldl_keeps _ (fun t : State => t.boot.listenOnly) (fun t a => by simp) _ _,
    foldl_keeps _ (fun t : State => t.boot.eeprom) (fun t a => by simp) _ _,
    foldl_keeps _ (fun t : State => t.port.portErrors) (fun t a => by simp) _ _,
    foldl_keeps _ (fun t : State => t.line.driving) (fun t a => by simp) _ _,
    foldl_keeps _ (fun t : State => t.line.framesSent) (fun t a => by simp) _ _,
    foldl_keeps _ (fun t : State => t.line.deferrals) (fun t a => by simp) _ _,
    foldl_keeps _ (fun t : State => t.line.receiveErrors) (fun t a => by simp) _ _,
    foldl_keeps _ (fun t : State => t.line.midFrame) (fun t a => by simp) _ _,
    foldl_keeps _ (fun t : State => t.stock.seqNext) (fun t a => by simp) _ _,
    foldl_keeps _ (fun t : State => t.stock.answerBatch) (fun t a => by simp) _ _,
    foldl_keeps _ (fun t : State => t.stock.answerTouched) (fun t a => by simp) _ _,
    foldl_keeps _ (fun t : State => t.cut.blade) (fun t a => by simp) _ _,
    foldl_keeps _ (fun t : State => t.cut.parked) (fun t a => by simp) _ _,
    foldl_keeps _ (fun t : State => t.cut.priming) (fun t a => by simp) _ _,
    foldl_keeps _ (fun t : State => t.water) (fun t a => by simp) _ _,
    foldl_keeps _ (fun t : State => t.plant) (fun t a => by simp) _ _,
    foldl_keeps _ (fun t : State => t.cost.log) (fun t a => by simp) _ _,
    foldl_keeps _ (fun t : State => t.cost.armed) (fun t a => by simp) _ _⟩

@[simp] theorem writeSplit_views (p : Nat) (fs : List (List SlabRecord)) (s : State) :
    (writeSplit p fs s).cfg = s.cfg ∧ (writeSplit p fs s).station = s.station
      ∧ (writeSplit p fs s).role = s.role ∧ (writeSplit p fs s).now = s.now
      ∧ (writeSplit p fs s).joined = s.joined ∧ (writeSplit p fs s).inService = s.inService
      ∧ (writeSplit p fs s).bladeType = s.bladeType ∧ (writeSplit p fs s).ownDraw = s.ownDraw
      ∧ (writeSplit p fs s).ownGrant = s.ownGrant := by
  simp [State.cfg, State.station, State.role, State.now, State.joined, State.inService,
    State.bladeType, State.ownDraw, State.ownGrant]

@[simp] theorem complete_fields (p : Plan) (s : State) :
    (complete p s).pending = s.pending ∧ (complete p s).freeCount = s.freeCount
      ∧ (complete p s).boot.runState = s.boot.runState ∧ (complete p s).boot.phase = s.boot.phase
      ∧ (complete p s).boot.shopTime = s.boot.shopTime ∧ (complete p s).boot.config = s.boot.config
      ∧ (complete p s).boot.epoch = s.boot.epoch ∧ (complete p s).boot.advanced = s.boot.advanced
      ∧ (complete p s).boot.listenOnly = s.boot.listenOnly ∧ (complete p s).boot.eeprom = s.boot.eeprom
      ∧ (complete p s).port.portErrors = s.port.portErrors ∧ (complete p s).line.driving = s.line.driving
      ∧ (complete p s).line.framesSent = s.line.framesSent
      ∧ (complete p s).line.deferrals = s.line.deferrals
      ∧ (complete p s).line.receiveErrors = s.line.receiveErrors
      ∧ (complete p s).line.midFrame = s.line.midFrame
      ∧ (complete p s).stock.answerBatch = s.stock.answerBatch
      ∧ (complete p s).stock.answerTouched = s.stock.answerTouched ∧ (complete p s).cut.blade = s.cut.blade
      ∧ (complete p s).cut.parked = s.cut.parked ∧ (complete p s).cut.priming = s.cut.priming
      ∧ (complete p s).water = s.water ∧ (complete p s).plant = s.plant := by
  unfold complete
  try dsimp only
  (repeat' split) <;> simp

@[simp] theorem complete_views (p : Plan) (s : State) :
    (complete p s).cfg = s.cfg ∧ (complete p s).station = s.station ∧ (complete p s).role = s.role
      ∧ (complete p s).now = s.now ∧ (complete p s).joined = s.joined
      ∧ (complete p s).inService = s.inService ∧ (complete p s).bladeType = s.bladeType
      ∧ (complete p s).ownDraw = s.ownDraw ∧ (complete p s).ownGrant = s.ownGrant := by
  simp [State.cfg, State.station, State.role, State.now, State.joined, State.inService,
    State.bladeType, State.ownDraw, State.ownGrant]

end Sys2Proof.Machine
end

