-- ==== Sys2Proof/Laws/FramePlantUnit.lean ====
section
/-! SUPPORT. What the plant unit leaves unchanged: for each operation one lemma of the fields it does not
touch, and one of what is read from them. -/

namespace Sys2Proof.Machine

@[simp] theorem queuePlant_fields (s : State) :
    (queuePlant s).pending = s.pending ∧ (queuePlant s).freeCount = s.freeCount
      ∧ (queuePlant s).boot = s.boot ∧ (queuePlant s).port = s.port
      ∧ (queuePlant s).line.driving = s.line.driving ∧ (queuePlant s).line.framesSent = s.line.framesSent
      ∧ (queuePlant s).line.deferrals = s.line.deferrals
      ∧ (queuePlant s).line.receiveErrors = s.line.receiveErrors
      ∧ (queuePlant s).line.midFrame = s.line.midFrame ∧ (queuePlant s).stock = s.stock
      ∧ (queuePlant s).plan = s.plan ∧ (queuePlant s).cut = s.cut ∧ (queuePlant s).water = s.water
      ∧ (queuePlant s).plant = s.plant ∧ (queuePlant s).cost = s.cost := by
  unfold queuePlant
  try dsimp only
  (repeat' split) <;> simp

@[simp] theorem queuePlant_views (s : State) :
    (queuePlant s).cfg = s.cfg ∧ (queuePlant s).station = s.station ∧ (queuePlant s).role = s.role
      ∧ (queuePlant s).now = s.now ∧ (queuePlant s).joined = s.joined
      ∧ (queuePlant s).inService = s.inService ∧ (queuePlant s).bladeType = s.bladeType
      ∧ (queuePlant s).ownDraw = s.ownDraw ∧ (queuePlant s).ownGrant = s.ownGrant
      ∧ (queuePlant s).slab = s.slab ∧ (queuePlant s).jobEntry = s.jobEntry := by
  simp [State.cfg, State.station, State.role, State.now, State.joined, State.inService,
    State.bladeType, State.ownDraw, State.ownGrant, State.slab, State.jobEntry, funext_iff]

@[simp] theorem announceTest_fields (s : State) :
    (announceTest s).pending = s.pending ∧ (announceTest s).freeCount = s.freeCount
      ∧ (announceTest s).boot = s.boot ∧ (announceTest s).port = s.port
      ∧ (announceTest s).line.driving = s.line.driving
      ∧ (announceTest s).line.framesSent = s.line.framesSent
      ∧ (announceTest s).line.deferrals = s.line.deferrals
      ∧ (announceTest s).line.receiveErrors = s.line.receiveErrors
      ∧ (announceTest s).line.midFrame = s.line.midFrame ∧ (announceTest s).stock = s.stock
      ∧ (announceTest s).plan = s.plan ∧ (announceTest s).cut = s.cut ∧ (announceTest s).water = s.water
      ∧ (announceTest s).plant = s.plant ∧ (announceTest s).cost = s.cost := by
  unfold announceTest
  try dsimp only
  (repeat' split) <;> simp

@[simp] theorem announceTest_views (s : State) :
    (announceTest s).cfg = s.cfg ∧ (announceTest s).station = s.station ∧ (announceTest s).role = s.role
      ∧ (announceTest s).now = s.now ∧ (announceTest s).joined = s.joined
      ∧ (announceTest s).inService = s.inService ∧ (announceTest s).bladeType = s.bladeType
      ∧ (announceTest s).ownDraw = s.ownDraw ∧ (announceTest s).ownGrant = s.ownGrant
      ∧ (announceTest s).slab = s.slab ∧ (announceTest s).jobEntry = s.jobEntry := by
  simp [State.cfg, State.station, State.role, State.now, State.joined, State.inService,
    State.bladeType, State.ownDraw, State.ownGrant, State.slab, State.jobEntry, funext_iff]

@[simp] theorem acceptReport_fields (a b c : Nat) (s : State) :
    (acceptReport a b c s).pending = s.pending ∧ (acceptReport a b c s).freeCount = s.freeCount
      ∧ (acceptReport a b c s).boot = s.boot ∧ (acceptReport a b c s).port = s.port
      ∧ (acceptReport a b c s).line = s.line ∧ (acceptReport a b c s).stock = s.stock
      ∧ (acceptReport a b c s).plan = s.plan ∧ (acceptReport a b c s).cut = s.cut
      ∧ (acceptReport a b c s).water = s.water ∧ (acceptReport a b c s).cost = s.cost := by
  simp [acceptReport]

@[simp] theorem acceptReport_views (a b c : Nat) (s : State) :
    (acceptReport a b c s).cfg = s.cfg ∧ (acceptReport a b c s).station = s.station
      ∧ (acceptReport a b c s).role = s.role ∧ (acceptReport a b c s).now = s.now
      ∧ (acceptReport a b c s).joined = s.joined ∧ (acceptReport a b c s).inService = s.inService
      ∧ (acceptReport a b c s).bladeType = s.bladeType ∧ (acceptReport a b c s).ownDraw = s.ownDraw
      ∧ (acceptReport a b c s).ownGrant = s.ownGrant ∧ (acceptReport a b c s).slab = s.slab
      ∧ (acceptReport a b c s).jobEntry = s.jobEntry := by
  simp [State.cfg, State.station, State.role, State.now, State.joined, State.inService,
    State.bladeType, State.ownDraw, State.ownGrant, State.slab, State.jobEntry, funext_iff]

@[simp] theorem reportsStale_fields (s : State) :
    (reportsStale s).pending = s.pending ∧ (reportsStale s).freeCount = s.freeCount
      ∧ (reportsStale s).boot.runState = s.boot.runState ∧ (reportsStale s).boot.phase = s.boot.phase
      ∧ (reportsStale s).boot.shopTime = s.boot.shopTime ∧ (reportsStale s).boot.config = s.boot.config
      ∧ (reportsStale s).boot.epoch = s.boot.epoch ∧ (reportsStale s).boot.advanced = s.boot.advanced
      ∧ (reportsStale s).boot.listenOnly = s.boot.listenOnly ∧ (reportsStale s).boot.eeprom = s.boot.eeprom
      ∧ (reportsStale s).port.outstanding = s.port.outstanding
      ∧ (reportsStale s).port.portErrors = s.port.portErrors
      ∧ (reportsStale s).line.driving = s.line.driving
      ∧ (reportsStale s).line.framesSent = s.line.framesSent
      ∧ (reportsStale s).line.deferrals = s.line.deferrals
      ∧ (reportsStale s).line.receiveErrors = s.line.receiveErrors
      ∧ (reportsStale s).line.midFrame = s.line.midFrame ∧ (reportsStale s).stock = s.stock
      ∧ (reportsStale s).plan = s.plan ∧ (reportsStale s).cut = s.cut ∧ (reportsStale s).water = s.water
      ∧ (reportsStale s).cost = s.cost := by
  simp [reportsStale]

@[simp] theorem reportsStale_views (s : State) :
    (reportsStale s).cfg = s.cfg ∧ (reportsStale s).station = s.station ∧ (reportsStale s).role = s.role
      ∧ (reportsStale s).now = s.now ∧ (reportsStale s).joined = s.joined
      ∧ (reportsStale s).inService = s.inService ∧ (reportsStale s).bladeType = s.bladeType
      ∧ (reportsStale s).ownDraw = s.ownDraw ∧ (reportsStale s).ownGrant = s.ownGrant
      ∧ (reportsStale s).slab = s.slab ∧ (reportsStale s).jobEntry = s.jobEntry := by
  simp [State.cfg, State.station, State.role, State.now, State.joined, State.inService,
    State.bladeType, State.ownDraw, State.ownGrant, State.slab, State.jobEntry, funext_iff]

@[simp] theorem plantAnnounced_fields (c : Nat) (st sl : Bool) (s : State) :
    (plantAnnounced c st sl s).pending = s.pending ∧ (plantAnnounced c st sl s).freeCount = s.freeCount
      ∧ (plantAnnounced c st sl s).boot = s.boot ∧ (plantAnnounced c st sl s).port = s.port
      ∧ (plantAnnounced c st sl s).line = s.line ∧ (plantAnnounced c st sl s).stock = s.stock
      ∧ (plantAnnounced c st sl s).plan = s.plan ∧ (plantAnnounced c st sl s).cut = s.cut
      ∧ (plantAnnounced c st sl s).water = s.water ∧ (plantAnnounced c st sl s).cost = s.cost := by
  simp [plantAnnounced]

@[simp] theorem plantAnnounced_views (c : Nat) (st sl : Bool) (s : State) :
    (plantAnnounced c st sl s).cfg = s.cfg ∧ (plantAnnounced c st sl s).station = s.station
      ∧ (plantAnnounced c st sl s).role = s.role ∧ (plantAnnounced c st sl s).now = s.now
      ∧ (plantAnnounced c st sl s).joined = s.joined ∧ (plantAnnounced c st sl s).inService = s.inService
      ∧ (plantAnnounced c st sl s).bladeType = s.bladeType ∧ (plantAnnounced c st sl s).ownDraw = s.ownDraw
      ∧ (plantAnnounced c st sl s).ownGrant = s.ownGrant ∧ (plantAnnounced c st sl s).slab = s.slab
      ∧ (plantAnnounced c st sl s).jobEntry = s.jobEntry := by
  simp [State.cfg, State.station, State.role, State.now, State.joined, State.inService,
    State.bladeType, State.ownDraw, State.ownGrant, State.slab, State.jobEntry, funext_iff]

@[simp] theorem announceExpired_fields (s : State) :
    (announceExpired s).pending = s.pending ∧ (announceExpired s).freeCount = s.freeCount
      ∧ (announceExpired s).boot = s.boot ∧ (announceExpired s).port = s.port
      ∧ (announceExpired s).line.driving = s.line.driving
      ∧ (announceExpired s).line.framesSent = s.line.framesSent
      ∧ (announceExpired s).line.deferrals = s.line.deferrals
      ∧ (announceExpired s).line.receiveErrors = s.line.receiveErrors
      ∧ (announceExpired s).line.midFrame = s.line.midFrame ∧ (announceExpired s).stock = s.stock
      ∧ (announceExpired s).plan = s.plan ∧ (announceExpired s).cut = s.cut
      ∧ (announceExpired s).water = s.water ∧ (announceExpired s).cost = s.cost := by
  simp [announceExpired]

@[simp] theorem announceExpired_views (s : State) :
    (announceExpired s).cfg = s.cfg ∧ (announceExpired s).station = s.station
      ∧ (announceExpired s).role = s.role ∧ (announceExpired s).now = s.now
      ∧ (announceExpired s).joined = s.joined ∧ (announceExpired s).inService = s.inService
      ∧ (announceExpired s).bladeType = s.bladeType ∧ (announceExpired s).ownDraw = s.ownDraw
      ∧ (announceExpired s).ownGrant = s.ownGrant ∧ (announceExpired s).slab = s.slab
      ∧ (announceExpired s).jobEntry = s.jobEntry := by
  simp [State.cfg, State.station, State.role, State.now, State.joined, State.inService,
    State.bladeType, State.ownDraw, State.ownGrant, State.slab, State.jobEntry, funext_iff]

end Sys2Proof.Machine
end

