-- ==== Sys2Proof/Laws/FrameLineUnit.lean ====
section
/-! SUPPORT. What the line unit leaves unchanged: for each operation one lemma of the fields it does not
touch, and one of what is read from them. -/

namespace Sys2Proof.Machine

@[simp] theorem silence_fields (s : State) :
    (silence s).pending = s.pending ∧ (silence s).freeCount = s.freeCount
      ∧ (silence s).boot.phase = s.boot.phase ∧ (silence s).boot.shopTime = s.boot.shopTime
      ∧ (silence s).boot.config = s.boot.config ∧ (silence s).boot.epoch = s.boot.epoch
      ∧ (silence s).boot.advanced = s.boot.advanced ∧ (silence s).boot.eeprom = s.boot.eeprom
      ∧ (silence s).port.portErrors = s.port.portErrors ∧ (silence s).line.framesSent = s.line.framesSent
      ∧ (silence s).line.deferrals = s.line.deferrals
      ∧ (silence s).line.receiveErrors = s.line.receiveErrors
      ∧ (silence s).line.midFrame = s.line.midFrame ∧ (silence s).stock.seqNext = s.stock.seqNext
      ∧ (silence s).stock.answerBatch = s.stock.answerBatch
      ∧ (silence s).stock.answerTouched = s.stock.answerTouched ∧ (silence s).cut.blade = s.cut.blade
      ∧ (silence s).cut.parked = s.cut.parked ∧ (silence s).cut.priming = s.cut.priming
      ∧ (silence s).water = s.water ∧ (silence s).plant = s.plant ∧ (silence s).cost.log = s.cost.log
      ∧ (silence s).cost.armed = s.cost.armed := by
  unfold silence
  exact ⟨(foldl_keeps _ (fun t : State => t.pending) (fun t a => by simp) _ _).trans
      ((foldl_keeps _ (fun t : State => t.pending) (fun t a => by simp) _ _).trans rfl),
    (foldl_keeps _ (fun t : State => t.freeCount) (fun t a => by simp) _ _).trans
      ((foldl_keeps _ (fun t : State => t.freeCount) (fun t a => by simp) _ _).trans rfl),
    (foldl_keeps _ (fun t : State => t.boot.phase) (fun t a => by simp) _ _).trans
      ((foldl_keeps _ (fun t : State => t.boot.phase) (fun t a => by simp) _ _).trans rfl),
    (foldl_keeps _ (fun t : State => t.boot.shopTime) (fun t a => by simp) _ _).trans
      ((foldl_keeps _ (fun t : State => t.boot.shopTime) (fun t a => by simp) _ _).trans rfl),
    (foldl_keeps _ (fun t : State => t.boot.config) (fun t a => by simp) _ _).trans
      ((foldl_keeps _ (fun t : State => t.boot.config) (fun t a => by simp) _ _).trans rfl),
    (foldl_keeps _ (fun t : State => t.boot.epoch) (fun t a => by simp) _ _).trans
      ((foldl_keeps _ (fun t : State => t.boot.epoch) (fun t a => by simp) _ _).trans rfl),
    (foldl_keeps _ (fun t : State => t.boot.advanced) (fun t a => by simp) _ _).trans
      ((foldl_keeps _ (fun t : State => t.boot.advanced) (fun t a => by simp) _ _).trans rfl),
    (foldl_keeps _ (fun t : State => t.boot.eeprom) (fun t a => by simp) _ _).trans
      ((foldl_keeps _ (fun t : State => t.boot.eeprom) (fun t a => by simp) _ _).trans rfl),
    (foldl_keeps _ (fun t : State => t.port.portErrors) (fun t a => by simp) _ _).trans
      ((foldl_keeps _ (fun t : State => t.port.portErrors) (fun t a => by simp) _ _).trans rfl),
    (foldl_keeps _ (fun t : State => t.line.framesSent) (fun t a => by simp) _ _).trans
      ((foldl_keeps _ (fun t : State => t.line.framesSent) (fun t a => by simp) _ _).trans rfl),
    (foldl_keeps _ (fun t : State => t.line.deferrals) (fun t a => by simp) _ _).trans
      ((foldl_keeps _ (fun t : State => t.line.deferrals) (fun t a => by simp) _ _).trans rfl),
    (foldl_keeps _ (fun t : State => t.line.receiveErrors) (fun t a => by simp) _ _).trans
      ((foldl_keeps _ (fun t : State => t.line.receiveErrors) (fun t a => by simp) _ _).trans rfl),
    (foldl_keeps _ (fun t : State => t.line.midFrame) (fun t a => by simp) _ _).trans
      ((foldl_keeps _ (fun t : State => t.line.midFrame) (fun t a => by simp) _ _).trans rfl),
    (foldl_keeps _ (fun t : State => t.stock.seqNext) (fun t a => by simp) _ _).trans
      ((foldl_keeps _ (fun t : State => t.stock.seqNext) (fun t a => by simp) _ _).trans rfl),
    (foldl_keeps _ (fun t : State => t.stock.answerBatch) (fun t a => by simp) _ _).trans
      ((foldl_keeps _ (fun t : State => t.stock.answerBatch) (fun t a => by simp) _ _).trans rfl),
    (foldl_keeps _ (fun t : State => t.stock.answerTouched) (fun t a => by simp) _ _).trans
      ((foldl_keeps _ (fun t : State => t.stock.answerTouched) (fun t a => by simp) _ _).trans rfl),
    (foldl_keeps _ (fun t : State => t.cut.blade) (fun t a => by simp) _ _).trans
      ((foldl_keeps _ (fun t : State => t.cut.blade) (fun t a => by simp) _ _).trans rfl),
    (foldl_keeps _ (fun t : State => t.cut.parked) (fun t a => by simp) _ _).trans
      ((foldl_keeps _ (fun t : State => t.cut.parked) (fun t a => by simp) _ _).trans rfl),
    (foldl_keeps _ (fun t : State => t.cut.priming) (fun t a => by simp) _ _).trans
      ((foldl_keeps _ (fun t : State => t.cut.priming) (fun t a => by simp) _ _).trans rfl),
    (foldl_keeps _ (fun t : State => t.water) (fun t a => by simp) _ _).trans
      ((foldl_keeps _ (fun t : State => t.water) (fun t a => by simp) _ _).trans rfl),
    (foldl_keeps _ (fun t : State => t.plant) (fun t a => by simp) _ _).trans
      ((foldl_keeps _ (fun t : State => t.plant) (fun t a => by simp) _ _).trans rfl),
    (foldl_keeps _ (fun t : State => t.cost.log) (fun t a => by simp) _ _).trans
      ((foldl_keeps _ (fun t : State => t.cost.log) (fun t a => by simp) _ _).trans rfl),
    (foldl_keeps _ (fun t : State => t.cost.armed) (fun t a => by simp) _ _).trans
      ((foldl_keeps _ (fun t : State => t.cost.armed) (fun t a => by simp) _ _).trans rfl)⟩

@[simp] theorem silence_views (s : State) :
    (silence s).cfg = s.cfg ∧ (silence s).station = s.station ∧ (silence s).role = s.role
      ∧ (silence s).now = s.now ∧ (silence s).bladeType = s.bladeType ∧ (silence s).ownDraw = s.ownDraw
      ∧ (silence s).ownGrant = s.ownGrant := by
  simp [State.cfg, State.station, State.role, State.now, State.bladeType, State.ownDraw, State.ownGrant]

@[simp] theorem duplicateHeard_fields (s : State) :
    (duplicateHeard s).pending = s.pending ∧ (duplicateHeard s).freeCount = s.freeCount
      ∧ (duplicateHeard s).boot.phase = s.boot.phase ∧ (duplicateHeard s).boot.shopTime = s.boot.shopTime
      ∧ (duplicateHeard s).boot.config = s.boot.config ∧ (duplicateHeard s).boot.epoch = s.boot.epoch
      ∧ (duplicateHeard s).boot.advanced = s.boot.advanced ∧ (duplicateHeard s).boot.eeprom = s.boot.eeprom
      ∧ (duplicateHeard s).port.portErrors = s.port.portErrors
      ∧ (duplicateHeard s).line.framesSent = s.line.framesSent
      ∧ (duplicateHeard s).line.deferrals = s.line.deferrals
      ∧ (duplicateHeard s).line.receiveErrors = s.line.receiveErrors
      ∧ (duplicateHeard s).line.midFrame = s.line.midFrame
      ∧ (duplicateHeard s).stock.seqNext = s.stock.seqNext
      ∧ (duplicateHeard s).stock.answerBatch = s.stock.answerBatch
      ∧ (duplicateHeard s).stock.answerTouched = s.stock.answerTouched
      ∧ (duplicateHeard s).cut.blade = s.cut.blade ∧ (duplicateHeard s).cut.parked = s.cut.parked
      ∧ (duplicateHeard s).cut.priming = s.cut.priming ∧ (duplicateHeard s).water = s.water
      ∧ (duplicateHeard s).plant = s.plant ∧ (duplicateHeard s).cost.log = s.cost.log
      ∧ (duplicateHeard s).cost.armed = s.cost.armed := by
  unfold duplicateHeard
  try dsimp only
  (repeat' split) <;> simp

@[simp] theorem duplicateHeard_views (s : State) :
    (duplicateHeard s).cfg = s.cfg ∧ (duplicateHeard s).station = s.station
      ∧ (duplicateHeard s).role = s.role ∧ (duplicateHeard s).now = s.now
      ∧ (duplicateHeard s).bladeType = s.bladeType ∧ (duplicateHeard s).ownDraw = s.ownDraw
      ∧ (duplicateHeard s).ownGrant = s.ownGrant := by
  simp [State.cfg, State.station, State.role, State.now, State.bladeType, State.ownDraw, State.ownGrant]

@[simp] theorem joinLine_fields (b : Bool) (s : State) :
    (joinLine b s).pending = s.pending ∧ (joinLine b s).freeCount = s.freeCount ∧ (joinLine b s).boot = s.boot
      ∧ (joinLine b s).port = s.port ∧ (joinLine b s).line.queue = s.line.queue
      ∧ (joinLine b s).line.waiters = s.line.waiters ∧ (joinLine b s).line.access = s.line.access
      ∧ (joinLine b s).line.driving = s.line.driving ∧ (joinLine b s).line.midFrame = b
      ∧ (joinLine b s).line.framesSent = s.line.framesSent ∧ (joinLine b s).line.deferrals = s.line.deferrals
      ∧ (joinLine b s).line.receiveErrors = s.line.receiveErrors ∧ (joinLine b s).stock = s.stock
      ∧ (joinLine b s).plan = s.plan ∧ (joinLine b s).cut = s.cut ∧ (joinLine b s).water = s.water
      ∧ (joinLine b s).plant = s.plant ∧ (joinLine b s).cost = s.cost := by
  simp [joinLine]

@[simp] theorem joinLine_views (b : Bool) (s : State) :
    (joinLine b s).cfg = s.cfg ∧ (joinLine b s).station = s.station ∧ (joinLine b s).role = s.role
      ∧ (joinLine b s).now = s.now ∧ (joinLine b s).joined = s.joined ∧ (joinLine b s).inService = s.inService
      ∧ (joinLine b s).bladeType = s.bladeType ∧ (joinLine b s).ownDraw = s.ownDraw
      ∧ (joinLine b s).ownGrant = s.ownGrant ∧ (joinLine b s).slab = s.slab
      ∧ (joinLine b s).jobEntry = s.jobEntry := by
  simp [State.cfg, State.station, State.role, State.now, State.joined, State.inService,
    State.bladeType, State.ownDraw, State.ownGrant, State.slab, State.jobEntry, funext_iff]

@[simp] theorem countReceiveError_fields (s : State) :
    (countReceiveError s).pending = s.pending ∧ (countReceiveError s).freeCount = s.freeCount
      ∧ (countReceiveError s).boot = s.boot ∧ (countReceiveError s).port = s.port
      ∧ (countReceiveError s).line.queue = s.line.queue
      ∧ (countReceiveError s).line.waiters = s.line.waiters
      ∧ (countReceiveError s).line.access = s.line.access
      ∧ (countReceiveError s).line.driving = s.line.driving
      ∧ (countReceiveError s).line.framesSent = s.line.framesSent
      ∧ (countReceiveError s).line.deferrals = s.line.deferrals
      ∧ (countReceiveError s).line.midFrame = s.line.midFrame ∧ (countReceiveError s).stock = s.stock
      ∧ (countReceiveError s).plan = s.plan ∧ (countReceiveError s).cut = s.cut
      ∧ (countReceiveError s).water = s.water ∧ (countReceiveError s).plant = s.plant
      ∧ (countReceiveError s).cost = s.cost := by
  simp [countReceiveError]

@[simp] theorem countReceiveError_views (s : State) :
    (countReceiveError s).cfg = s.cfg ∧ (countReceiveError s).station = s.station
      ∧ (countReceiveError s).role = s.role ∧ (countReceiveError s).now = s.now
      ∧ (countReceiveError s).joined = s.joined ∧ (countReceiveError s).inService = s.inService
      ∧ (countReceiveError s).bladeType = s.bladeType ∧ (countReceiveError s).ownDraw = s.ownDraw
      ∧ (countReceiveError s).ownGrant = s.ownGrant ∧ (countReceiveError s).slab = s.slab
      ∧ (countReceiveError s).jobEntry = s.jobEntry := by
  simp [State.cfg, State.station, State.role, State.now, State.joined, State.inService,
    State.bladeType, State.ownDraw, State.ownGrant, State.slab, State.jobEntry, funext_iff]

@[simp] theorem withdrawn_fields (e : QEntry) (st : Status) (s : State) :
    (withdrawn e st s).pending = s.pending ∧ (withdrawn e st s).freeCount = s.freeCount
      ∧ (withdrawn e st s).boot = s.boot ∧ (withdrawn e st s).port.portErrors = s.port.portErrors
      ∧ (withdrawn e st s).line.framesSent = s.line.framesSent
      ∧ (withdrawn e st s).line.deferrals = s.line.deferrals
      ∧ (withdrawn e st s).line.receiveErrors = s.line.receiveErrors
      ∧ (withdrawn e st s).line.midFrame = s.line.midFrame
      ∧ (withdrawn e st s).stock.table = s.stock.table ∧ (withdrawn e st s).stock.seqNext = s.stock.seqNext
      ∧ (withdrawn e st s).stock.window = s.stock.window
      ∧ (withdrawn e st s).stock.answerBatch = s.stock.answerBatch
      ∧ (withdrawn e st s).stock.answerTouched = s.stock.answerTouched ∧ (withdrawn e st s).plan = s.plan
      ∧ (withdrawn e st s).cut.state = s.cut.state ∧ (withdrawn e st s).cut.held = s.cut.held
      ∧ (withdrawn e st s).cut.segment = s.cut.segment ∧ (withdrawn e st s).cut.blade = s.cut.blade
      ∧ (withdrawn e st s).cut.parked = s.cut.parked ∧ (withdrawn e st s).cut.priming = s.cut.priming
      ∧ (withdrawn e st s).cut.splitLeft = s.cut.splitLeft ∧ (withdrawn e st s).water = s.water
      ∧ (withdrawn e st s).plant = s.plant ∧ (withdrawn e st s).cost = s.cost := by
  unfold withdrawn
  try dsimp only
  (repeat' split) <;> simp

@[simp] theorem withdrawn_views (e : QEntry) (st : Status) (s : State) :
    (withdrawn e st s).cfg = s.cfg ∧ (withdrawn e st s).station = s.station
      ∧ (withdrawn e st s).role = s.role ∧ (withdrawn e st s).now = s.now
      ∧ (withdrawn e st s).joined = s.joined ∧ (withdrawn e st s).inService = s.inService
      ∧ (withdrawn e st s).bladeType = s.bladeType ∧ (withdrawn e st s).ownDraw = s.ownDraw
      ∧ (withdrawn e st s).ownGrant = s.ownGrant ∧ (withdrawn e st s).slab = s.slab
      ∧ (withdrawn e st s).jobEntry = s.jobEntry := by
  simp [State.cfg, State.station, State.role, State.now, State.joined, State.inService,
    State.bladeType, State.ownDraw, State.ownGrant, State.slab, State.jobEntry, funext_iff]

@[simp] theorem beginSending_fields (e : QEntry) (s : State) :
    (beginSending e s).pending = s.pending ∧ (beginSending e s).freeCount = s.freeCount
      ∧ (beginSending e s).boot = s.boot ∧ (beginSending e s).port = s.port
      ∧ (beginSending e s).line.waiters = s.line.waiters
      ∧ (beginSending e s).line.framesSent = s.line.framesSent
      ∧ (beginSending e s).line.deferrals = s.line.deferrals
      ∧ (beginSending e s).line.receiveErrors = s.line.receiveErrors
      ∧ (beginSending e s).line.midFrame = s.line.midFrame ∧ (beginSending e s).stock = s.stock
      ∧ (beginSending e s).plan = s.plan ∧ (beginSending e s).cut = s.cut
      ∧ (beginSending e s).water = s.water ∧ (beginSending e s).plant = s.plant
      ∧ (beginSending e s).cost = s.cost := by
  simp [beginSending]

@[simp] theorem beginSending_views (e : QEntry) (s : State) :
    (beginSending e s).cfg = s.cfg ∧ (beginSending e s).station = s.station
      ∧ (beginSending e s).role = s.role ∧ (beginSending e s).now = s.now
      ∧ (beginSending e s).joined = s.joined ∧ (beginSending e s).inService = s.inService
      ∧ (beginSending e s).bladeType = s.bladeType ∧ (beginSending e s).ownDraw = s.ownDraw
      ∧ (beginSending e s).ownGrant = s.ownGrant ∧ (beginSending e s).slab = s.slab
      ∧ (beginSending e s).jobEntry = s.jobEntry := by
  simp [State.cfg, State.station, State.role, State.now, State.joined, State.inService,
    State.bladeType, State.ownDraw, State.ownGrant, State.slab, State.jobEntry, funext_iff]

@[simp] theorem holdHead_fields (e : QEntry) (s : State) :
    (holdHead e s).pending = s.pending ∧ (holdHead e s).freeCount = s.freeCount
      ∧ (holdHead e s).boot = s.boot ∧ (holdHead e s).port = s.port
      ∧ (holdHead e s).line.waiters = s.line.waiters ∧ (holdHead e s).line.driving = s.line.driving
      ∧ (holdHead e s).line.framesSent = s.line.framesSent
      ∧ (holdHead e s).line.deferrals = s.line.deferrals
      ∧ (holdHead e s).line.receiveErrors = s.line.receiveErrors
      ∧ (holdHead e s).line.midFrame = s.line.midFrame ∧ (holdHead e s).stock = s.stock
      ∧ (holdHead e s).plan = s.plan ∧ (holdHead e s).cut = s.cut ∧ (holdHead e s).water = s.water
      ∧ (holdHead e s).plant = s.plant ∧ (holdHead e s).cost = s.cost := by
  simp [holdHead]

@[simp] theorem holdHead_views (e : QEntry) (s : State) :
    (holdHead e s).cfg = s.cfg ∧ (holdHead e s).station = s.station ∧ (holdHead e s).role = s.role
      ∧ (holdHead e s).now = s.now ∧ (holdHead e s).joined = s.joined
      ∧ (holdHead e s).inService = s.inService ∧ (holdHead e s).bladeType = s.bladeType
      ∧ (holdHead e s).ownDraw = s.ownDraw ∧ (holdHead e s).ownGrant = s.ownGrant
      ∧ (holdHead e s).slab = s.slab ∧ (holdHead e s).jobEntry = s.jobEntry := by
  simp [State.cfg, State.station, State.role, State.now, State.joined, State.inService,
    State.bladeType, State.ownDraw, State.ownGrant, State.slab, State.jobEntry, funext_iff]

@[simp] theorem attempt_fields (b : Bool) (n : Nat) (q : Bool) (s : State) :
    (attempt b n q s).pending = s.pending ∧ (attempt b n q s).freeCount = s.freeCount
      ∧ (attempt b n q s).boot = s.boot ∧ (attempt b n q s).port.portErrors = s.port.portErrors
      ∧ (attempt b n q s).line.framesSent = s.line.framesSent
      ∧ (attempt b n q s).line.deferrals = s.line.deferrals
      ∧ (attempt b n q s).line.receiveErrors = s.line.receiveErrors
      ∧ (attempt b n q s).line.midFrame = s.line.midFrame
      ∧ (attempt b n q s).stock.table = s.stock.table ∧ (attempt b n q s).stock.seqNext = s.stock.seqNext
      ∧ (attempt b n q s).stock.window = s.stock.window
      ∧ (attempt b n q s).stock.answerBatch = s.stock.answerBatch
      ∧ (attempt b n q s).stock.answerTouched = s.stock.answerTouched ∧ (attempt b n q s).plan = s.plan
      ∧ (attempt b n q s).cut.state = s.cut.state ∧ (attempt b n q s).cut.held = s.cut.held
      ∧ (attempt b n q s).cut.segment = s.cut.segment ∧ (attempt b n q s).cut.blade = s.cut.blade
      ∧ (attempt b n q s).cut.parked = s.cut.parked ∧ (attempt b n q s).cut.priming = s.cut.priming
      ∧ (attempt b n q s).cut.splitLeft = s.cut.splitLeft ∧ (attempt b n q s).water = s.water
      ∧ (attempt b n q s).plant = s.plant ∧ (attempt b n q s).cost = s.cost := by
  induction n generalizing q s with
  | zero => simp [attempt]
  | succ n ih =>
    unfold attempt
    (repeat' split) <;> simp [ih]

@[simp] theorem attempt_views (b : Bool) (n : Nat) (q : Bool) (s : State) :
    (attempt b n q s).cfg = s.cfg ∧ (attempt b n q s).station = s.station ∧ (attempt b n q s).role = s.role
      ∧ (attempt b n q s).now = s.now ∧ (attempt b n q s).joined = s.joined
      ∧ (attempt b n q s).inService = s.inService ∧ (attempt b n q s).bladeType = s.bladeType
      ∧ (attempt b n q s).ownDraw = s.ownDraw ∧ (attempt b n q s).ownGrant = s.ownGrant
      ∧ (attempt b n q s).slab = s.slab ∧ (attempt b n q s).jobEntry = s.jobEntry := by
  simp [State.cfg, State.station, State.role, State.now, State.joined, State.inService,
    State.bladeType, State.ownDraw, State.ownGrant, State.slab, State.jobEntry, funext_iff]

@[simp] theorem quietElapsed_fields (b : Bool) (s : State) :
    (quietElapsed b s).pending = s.pending ∧ (quietElapsed b s).freeCount = s.freeCount
      ∧ (quietElapsed b s).boot = s.boot ∧ (quietElapsed b s).port.portErrors = s.port.portErrors
      ∧ (quietElapsed b s).line.framesSent = s.line.framesSent
      ∧ (quietElapsed b s).line.deferrals = s.line.deferrals
      ∧ (quietElapsed b s).line.receiveErrors = s.line.receiveErrors
      ∧ (quietElapsed b s).stock.table = s.stock.table ∧ (quietElapsed b s).stock.seqNext = s.stock.seqNext
      ∧ (quietElapsed b s).stock.window = s.stock.window
      ∧ (quietElapsed b s).stock.answerBatch = s.stock.answerBatch
      ∧ (quietElapsed b s).stock.answerTouched = s.stock.answerTouched ∧ (quietElapsed b s).plan = s.plan
      ∧ (quietElapsed b s).cut.state = s.cut.state ∧ (quietElapsed b s).cut.held = s.cut.held
      ∧ (quietElapsed b s).cut.segment = s.cut.segment ∧ (quietElapsed b s).cut.blade = s.cut.blade
      ∧ (quietElapsed b s).cut.parked = s.cut.parked ∧ (quietElapsed b s).cut.priming = s.cut.priming
      ∧ (quietElapsed b s).cut.splitLeft = s.cut.splitLeft ∧ (quietElapsed b s).water = s.water
      ∧ (quietElapsed b s).plant = s.plant ∧ (quietElapsed b s).cost = s.cost := by
  unfold quietElapsed
  try dsimp only
  (repeat' split) <;> simp

@[simp] theorem quietElapsed_views (b : Bool) (s : State) :
    (quietElapsed b s).cfg = s.cfg ∧ (quietElapsed b s).station = s.station
      ∧ (quietElapsed b s).role = s.role ∧ (quietElapsed b s).now = s.now
      ∧ (quietElapsed b s).joined = s.joined ∧ (quietElapsed b s).inService = s.inService
      ∧ (quietElapsed b s).bladeType = s.bladeType ∧ (quietElapsed b s).ownDraw = s.ownDraw
      ∧ (quietElapsed b s).ownGrant = s.ownGrant ∧ (quietElapsed b s).slab = s.slab
      ∧ (quietElapsed b s).jobEntry = s.jobEntry := by
  simp [State.cfg, State.station, State.role, State.now, State.joined, State.inService,
    State.bladeType, State.ownDraw, State.ownGrant, State.slab, State.jobEntry, funext_iff]

@[simp] theorem answerDraw_fields (e : QEntry) (s : State) :
    (answerDraw e s).pending = s.pending ∧ (answerDraw e s).freeCount = s.freeCount
      ∧ (answerDraw e s).boot = s.boot ∧ (answerDraw e s).port.portErrors = s.port.portErrors
      ∧ (answerDraw e s).line = s.line ∧ (answerDraw e s).stock = s.stock
      ∧ (answerDraw e s).cut.held = s.cut.held ∧ (answerDraw e s).cut.blade = s.cut.blade
      ∧ (answerDraw e s).cut.parked = s.cut.parked ∧ (answerDraw e s).cut.priming = s.cut.priming
      ∧ (answerDraw e s).cut.splitLeft = s.cut.splitLeft ∧ (answerDraw e s).water = s.water
      ∧ (answerDraw e s).plant = s.plant ∧ (answerDraw e s).cost = s.cost := by
  unfold answerDraw
  try dsimp only
  (repeat' split) <;> simp

@[simp] theorem answerDraw_views (e : QEntry) (s : State) :
    (answerDraw e s).cfg = s.cfg ∧ (answerDraw e s).station = s.station ∧ (answerDraw e s).role = s.role
      ∧ (answerDraw e s).now = s.now ∧ (answerDraw e s).joined = s.joined
      ∧ (answerDraw e s).inService = s.inService ∧ (answerDraw e s).bladeType = s.bladeType
      ∧ (answerDraw e s).ownDraw = s.ownDraw ∧ (answerDraw e s).ownGrant = s.ownGrant
      ∧ (answerDraw e s).slab = s.slab ∧ (answerDraw e s).jobEntry = s.jobEntry := by
  simp [State.cfg, State.station, State.role, State.now, State.joined, State.inService,
    State.bladeType, State.ownDraw, State.ownGrant, State.slab, State.jobEntry, funext_iff]

@[simp] theorem applyOwn_fields (e : QEntry) (s : State) :
    (applyOwn e s).pending = s.pending ∧ (applyOwn e s).freeCount = s.freeCount
      ∧ (applyOwn e s).boot.runState = s.boot.runState ∧ (applyOwn e s).boot.phase = s.boot.phase
      ∧ (applyOwn e s).boot.shopTime = s.boot.shopTime ∧ (applyOwn e s).boot.config = s.boot.config
      ∧ (applyOwn e s).boot.epoch = s.boot.epoch ∧ (applyOwn e s).boot.advanced = s.boot.advanced
      ∧ (applyOwn e s).boot.listenOnly = s.boot.listenOnly ∧ (applyOwn e s).boot.eeprom = s.boot.eeprom
      ∧ (applyOwn e s).port.portErrors = s.port.portErrors ∧ (applyOwn e s).line.driving = s.line.driving
      ∧ (applyOwn e s).line.framesSent = s.line.framesSent
      ∧ (applyOwn e s).line.deferrals = s.line.deferrals
      ∧ (applyOwn e s).line.receiveErrors = s.line.receiveErrors
      ∧ (applyOwn e s).line.midFrame = s.line.midFrame
      ∧ (applyOwn e s).stock.seqNext = s.stock.seqNext ∧ (applyOwn e s).cut.blade = s.cut.blade
      ∧ (applyOwn e s).cut.parked = s.cut.parked ∧ (applyOwn e s).cut.priming = s.cut.priming
      ∧ (applyOwn e s).cost.log = s.cost.log ∧ (applyOwn e s).cost.armed = s.cost.armed := by
  unfold applyOwn
  try dsimp only
  (repeat' split) <;> simp

@[simp] theorem applyOwn_views (e : QEntry) (s : State) :
    (applyOwn e s).cfg = s.cfg ∧ (applyOwn e s).station = s.station ∧ (applyOwn e s).role = s.role
      ∧ (applyOwn e s).now = s.now ∧ (applyOwn e s).joined = s.joined
      ∧ (applyOwn e s).inService = s.inService ∧ (applyOwn e s).bladeType = s.bladeType := by
  simp [State.cfg, State.station, State.role, State.now, State.joined, State.inService,
    State.bladeType]

@[simp] theorem echoClean_fields (s : State) :
    (echoClean s).pending = s.pending ∧ (echoClean s).freeCount = s.freeCount
      ∧ (echoClean s).boot.runState = s.boot.runState ∧ (echoClean s).boot.phase = s.boot.phase
      ∧ (echoClean s).boot.shopTime = s.boot.shopTime ∧ (echoClean s).boot.config = s.boot.config
      ∧ (echoClean s).boot.epoch = s.boot.epoch ∧ (echoClean s).boot.advanced = s.boot.advanced
      ∧ (echoClean s).boot.listenOnly = s.boot.listenOnly ∧ (echoClean s).boot.eeprom = s.boot.eeprom
      ∧ (echoClean s).port.portErrors = s.port.portErrors ∧ (echoClean s).line.deferrals = s.line.deferrals
      ∧ (echoClean s).line.receiveErrors = s.line.receiveErrors
      ∧ (echoClean s).line.midFrame = s.line.midFrame
      ∧ (echoClean s).stock.seqNext = s.stock.seqNext ∧ (echoClean s).cut.blade = s.cut.blade
      ∧ (echoClean s).cut.parked = s.cut.parked ∧ (echoClean s).cut.priming = s.cut.priming
      ∧ (echoClean s).cost.log = s.cost.log ∧ (echoClean s).cost.armed = s.cost.armed := by
  unfold echoClean
  try dsimp only
  (repeat' split) <;> simp

@[simp] theorem echoClean_views (s : State) :
    (echoClean s).cfg = s.cfg ∧ (echoClean s).station = s.station ∧ (echoClean s).role = s.role
      ∧ (echoClean s).now = s.now ∧ (echoClean s).joined = s.joined ∧ (echoClean s).inService = s.inService
      ∧ (echoClean s).bladeType = s.bladeType := by
  simp [State.cfg, State.station, State.role, State.now, State.joined, State.inService,
    State.bladeType]

@[simp] theorem lostSplit_fields (e : QEntry) (s : State) :
    (lostSplit e s).pending = s.pending ∧ (lostSplit e s).freeCount = s.freeCount
      ∧ (lostSplit e s).boot.runState = s.boot.runState ∧ (lostSplit e s).boot.phase = s.boot.phase
      ∧ (lostSplit e s).boot.shopTime = s.boot.shopTime ∧ (lostSplit e s).boot.config = s.boot.config
      ∧ (lostSplit e s).boot.epoch = s.boot.epoch ∧ (lostSplit e s).boot.advanced = s.boot.advanced
      ∧ (lostSplit e s).boot.listenOnly = s.boot.listenOnly ∧ (lostSplit e s).boot.eeprom = s.boot.eeprom
      ∧ (lostSplit e s).port.portErrors = s.port.portErrors ∧ (lostSplit e s).line.driving = s.line.driving
      ∧ (lostSplit e s).line.framesSent = s.line.framesSent
      ∧ (lostSplit e s).line.deferrals = s.line.deferrals
      ∧ (lostSplit e s).line.receiveErrors = s.line.receiveErrors
      ∧ (lostSplit e s).line.midFrame = s.line.midFrame
      ∧ (lostSplit e s).stock.seqNext = s.stock.seqNext
      ∧ (lostSplit e s).stock.answerBatch = s.stock.answerBatch
      ∧ (lostSplit e s).stock.answerTouched = s.stock.answerTouched
      ∧ (lostSplit e s).cut.blade = s.cut.blade ∧ (lostSplit e s).cut.parked = s.cut.parked
      ∧ (lostSplit e s).cut.priming = s.cut.priming ∧ (lostSplit e s).water = s.water
      ∧ (lostSplit e s).plant = s.plant ∧ (lostSplit e s).cost.log = s.cost.log
      ∧ (lostSplit e s).cost.armed = s.cost.armed := by
  unfold lostSplit
  try dsimp only
  (repeat' split) <;> simp

@[simp] theorem lostSplit_views (e : QEntry) (s : State) :
    (lostSplit e s).cfg = s.cfg ∧ (lostSplit e s).station = s.station ∧ (lostSplit e s).role = s.role
      ∧ (lostSplit e s).now = s.now ∧ (lostSplit e s).joined = s.joined
      ∧ (lostSplit e s).inService = s.inService ∧ (lostSplit e s).bladeType = s.bladeType
      ∧ (lostSplit e s).ownDraw = s.ownDraw ∧ (lostSplit e s).ownGrant = s.ownGrant := by
  simp [State.cfg, State.station, State.role, State.now, State.joined, State.inService,
    State.bladeType, State.ownDraw, State.ownGrant]

@[simp] theorem noticeLost_fields (e : QEntry) (s : State) :
    (noticeLost e s).pending = s.pending ∧ (noticeLost e s).freeCount = s.freeCount
      ∧ (noticeLost e s).boot.runState = s.boot.runState ∧ (noticeLost e s).boot.phase = s.boot.phase
      ∧ (noticeLost e s).boot.shopTime = s.boot.shopTime ∧ (noticeLost e s).boot.config = s.boot.config
      ∧ (noticeLost e s).boot.epoch = s.boot.epoch ∧ (noticeLost e s).boot.advanced = s.boot.advanced
      ∧ (noticeLost e s).boot.listenOnly = s.boot.listenOnly ∧ (noticeLost e s).boot.eeprom = s.boot.eeprom
      ∧ (noticeLost e s).port.portErrors = s.port.portErrors
      ∧ (noticeLost e s).line.framesSent = s.line.framesSent
      ∧ (noticeLost e s).line.deferrals = s.line.deferrals
      ∧ (noticeLost e s).line.receiveErrors = s.line.receiveErrors
      ∧ (noticeLost e s).line.midFrame = s.line.midFrame
      ∧ (noticeLost e s).stock.seqNext = s.stock.seqNext
      ∧ (noticeLost e s).stock.answerBatch = s.stock.answerBatch
      ∧ (noticeLost e s).stock.answerTouched = s.stock.answerTouched
      ∧ (noticeLost e s).cut.blade = s.cut.blade ∧ (noticeLost e s).cut.parked = s.cut.parked
      ∧ (noticeLost e s).cut.priming = s.cut.priming ∧ (noticeLost e s).water = s.water
      ∧ (noticeLost e s).plant = s.plant ∧ (noticeLost e s).cost.log = s.cost.log
      ∧ (noticeLost e s).cost.armed = s.cost.armed := by
  simp [noticeLost]

@[simp] theorem noticeLost_views (e : QEntry) (s : State) :
    (noticeLost e s).cfg = s.cfg ∧ (noticeLost e s).station = s.station ∧ (noticeLost e s).role = s.role
      ∧ (noticeLost e s).now = s.now ∧ (noticeLost e s).joined = s.joined
      ∧ (noticeLost e s).inService = s.inService ∧ (noticeLost e s).bladeType = s.bladeType
      ∧ (noticeLost e s).ownDraw = s.ownDraw ∧ (noticeLost e s).ownGrant = s.ownGrant := by
  simp [State.cfg, State.station, State.role, State.now, State.joined, State.inService,
    State.bladeType, State.ownDraw, State.ownGrant]

@[simp] theorem echoDiffers_fields (s : State) :
    (echoDiffers s).pending = s.pending ∧ (echoDiffers s).boot.runState = s.boot.runState
      ∧ (echoDiffers s).boot.phase = s.boot.phase ∧ (echoDiffers s).boot.shopTime = s.boot.shopTime
      ∧ (echoDiffers s).boot.config = s.boot.config ∧ (echoDiffers s).boot.epoch = s.boot.epoch
      ∧ (echoDiffers s).boot.advanced = s.boot.advanced
      ∧ (echoDiffers s).boot.listenOnly = s.boot.listenOnly ∧ (echoDiffers s).boot.eeprom = s.boot.eeprom
      ∧ (echoDiffers s).port.portErrors = s.port.portErrors
      ∧ (echoDiffers s).line.framesSent = s.line.framesSent
      ∧ (echoDiffers s).line.receiveErrors = s.line.receiveErrors
      ∧ (echoDiffers s).line.midFrame = s.line.midFrame
      ∧ (echoDiffers s).stock.seqNext = s.stock.seqNext
      ∧ (echoDiffers s).stock.answerBatch = s.stock.answerBatch
      ∧ (echoDiffers s).stock.answerTouched = s.stock.answerTouched
      ∧ (echoDiffers s).cut.blade = s.cut.blade ∧ (echoDiffers s).cut.parked = s.cut.parked
      ∧ (echoDiffers s).cut.priming = s.cut.priming ∧ (echoDiffers s).water = s.water
      ∧ (echoDiffers s).plant = s.plant ∧ (echoDiffers s).cost.log = s.cost.log
      ∧ (echoDiffers s).cost.armed = s.cost.armed := by
  unfold echoDiffers
  try dsimp only
  (repeat' split) <;> simp

@[simp] theorem echoDiffers_views (s : State) :
    (echoDiffers s).cfg = s.cfg ∧ (echoDiffers s).station = s.station ∧ (echoDiffers s).role = s.role
      ∧ (echoDiffers s).now = s.now ∧ (echoDiffers s).joined = s.joined
      ∧ (echoDiffers s).inService = s.inService ∧ (echoDiffers s).bladeType = s.bladeType
      ∧ (echoDiffers s).ownDraw = s.ownDraw ∧ (echoDiffers s).ownGrant = s.ownGrant := by
  simp [State.cfg, State.station, State.role, State.now, State.joined, State.inService,
    State.bladeType, State.ownDraw, State.ownGrant]

@[simp] theorem deferralEnds_fields (s : State) :
    (deferralEnds s).pending = s.pending ∧ (deferralEnds s).freeCount = s.freeCount
      ∧ (deferralEnds s).boot = s.boot ∧ (deferralEnds s).port = s.port
      ∧ (deferralEnds s).line.queue = s.line.queue ∧ (deferralEnds s).line.waiters = s.line.waiters
      ∧ (deferralEnds s).line.driving = s.line.driving
      ∧ (deferralEnds s).line.framesSent = s.line.framesSent
      ∧ (deferralEnds s).line.deferrals = s.line.deferrals
      ∧ (deferralEnds s).line.receiveErrors = s.line.receiveErrors
      ∧ (deferralEnds s).line.midFrame = s.line.midFrame ∧ (deferralEnds s).stock = s.stock
      ∧ (deferralEnds s).plan = s.plan ∧ (deferralEnds s).cut = s.cut ∧ (deferralEnds s).water = s.water
      ∧ (deferralEnds s).plant = s.plant ∧ (deferralEnds s).cost = s.cost := by
  unfold deferralEnds
  try dsimp only
  (repeat' split) <;> simp

@[simp] theorem deferralEnds_views (s : State) :
    (deferralEnds s).cfg = s.cfg ∧ (deferralEnds s).station = s.station ∧ (deferralEnds s).role = s.role
      ∧ (deferralEnds s).now = s.now ∧ (deferralEnds s).joined = s.joined
      ∧ (deferralEnds s).inService = s.inService ∧ (deferralEnds s).bladeType = s.bladeType
      ∧ (deferralEnds s).ownDraw = s.ownDraw ∧ (deferralEnds s).ownGrant = s.ownGrant
      ∧ (deferralEnds s).slab = s.slab ∧ (deferralEnds s).jobEntry = s.jobEntry := by
  simp [State.cfg, State.station, State.role, State.now, State.joined, State.inService,
    State.bladeType, State.ownDraw, State.ownGrant, State.slab, State.jobEntry, funext_iff]

end Sys2Proof.Machine
end

