-- ==== Sys2Proof/Laws/FrameStartUp.lean ====
section
/-! SUPPORT. What the start-up unit leaves unchanged: for each operation one lemma of the fields it does not
touch, and one of what is read from them. -/

namespace Sys2Proof.Machine

@[simp] theorem countPortError_fields (s : State) :
    (countPortError s).pending = s.pending ∧ (countPortError s).freeCount = s.freeCount
      ∧ (countPortError s).boot = s.boot ∧ (countPortError s).port.outstanding = s.port.outstanding
      ∧ (countPortError s).port.out = s.port.out ∧ (countPortError s).port.txBusy = s.port.txBusy
      ∧ (countPortError s).port.overrun = s.port.overrun ∧ (countPortError s).line = s.line
      ∧ (countPortError s).stock = s.stock ∧ (countPortError s).plan = s.plan
      ∧ (countPortError s).cut = s.cut ∧ (countPortError s).water = s.water
      ∧ (countPortError s).plant = s.plant ∧ (countPortError s).cost = s.cost := by
  simp [countPortError]

@[simp] theorem countPortError_views (s : State) :
    (countPortError s).cfg = s.cfg ∧ (countPortError s).station = s.station
      ∧ (countPortError s).role = s.role ∧ (countPortError s).now = s.now
      ∧ (countPortError s).joined = s.joined ∧ (countPortError s).inService = s.inService
      ∧ (countPortError s).bladeType = s.bladeType ∧ (countPortError s).ownDraw = s.ownDraw
      ∧ (countPortError s).ownGrant = s.ownGrant ∧ (countPortError s).slab = s.slab
      ∧ (countPortError s).jobEntry = s.jobEntry := by
  simp [State.cfg, State.station, State.role, State.now, State.joined, State.inService,
    State.bladeType, State.ownDraw, State.ownGrant, State.slab, State.jobEntry, funext_iff]

@[simp] theorem announceSelf_fields (s : State) :
    (announceSelf s).pending = s.pending ∧ (announceSelf s).freeCount = s.freeCount
      ∧ (announceSelf s).boot = s.boot ∧ (announceSelf s).port = s.port
      ∧ (announceSelf s).line.driving = s.line.driving
      ∧ (announceSelf s).line.framesSent = s.line.framesSent
      ∧ (announceSelf s).line.deferrals = s.line.deferrals
      ∧ (announceSelf s).line.receiveErrors = s.line.receiveErrors
      ∧ (announceSelf s).line.midFrame = s.line.midFrame ∧ (announceSelf s).stock = s.stock
      ∧ (announceSelf s).plan = s.plan ∧ (announceSelf s).cut = s.cut ∧ (announceSelf s).water = s.water
      ∧ (announceSelf s).plant = s.plant ∧ (announceSelf s).cost = s.cost := by
  unfold announceSelf
  try dsimp only
  (repeat' split) <;> simp

@[simp] theorem announceSelf_views (s : State) :
    (announceSelf s).cfg = s.cfg ∧ (announceSelf s).station = s.station ∧ (announceSelf s).role = s.role
      ∧ (announceSelf s).now = s.now ∧ (announceSelf s).joined = s.joined
      ∧ (announceSelf s).inService = s.inService ∧ (announceSelf s).bladeType = s.bladeType
      ∧ (announceSelf s).ownDraw = s.ownDraw ∧ (announceSelf s).ownGrant = s.ownGrant
      ∧ (announceSelf s).slab = s.slab ∧ (announceSelf s).jobEntry = s.jobEntry := by
  simp [State.cfg, State.station, State.role, State.now, State.joined, State.inService,
    State.bladeType, State.ownDraw, State.ownGrant, State.slab, State.jobEntry, funext_iff]

end Sys2Proof.Machine
end

