-- ==== Sys2Proof/Laws/FrameCommands.lean ====
section
/-! SUPPORT. What the commands' own operations leave unchanged: for each operation one lemma of the fields it does not
touch, and one of what is read from them. -/

namespace Sys2Proof.Machine

@[simp] theorem issueId_fields (s : State) :
    (issueId s).pending = s.pending ∧ (issueId s).freeCount = s.freeCount ∧ (issueId s).boot = s.boot
      ∧ (issueId s).port = s.port ∧ (issueId s).line = s.line ∧ (issueId s).stock.table = s.stock.table
      ∧ (issueId s).stock.window = s.stock.window ∧ (issueId s).stock.heldExpiry = s.stock.heldExpiry
      ∧ (issueId s).stock.answerBatch = s.stock.answerBatch
      ∧ (issueId s).stock.answerTouched = s.stock.answerTouched ∧ (issueId s).plan = s.plan
      ∧ (issueId s).cut = s.cut ∧ (issueId s).water = s.water ∧ (issueId s).plant = s.plant
      ∧ (issueId s).cost = s.cost := by
  simp [issueId]

@[simp] theorem issueId_views (s : State) :
    (issueId s).cfg = s.cfg ∧ (issueId s).station = s.station ∧ (issueId s).role = s.role
      ∧ (issueId s).now = s.now ∧ (issueId s).joined = s.joined ∧ (issueId s).inService = s.inService
      ∧ (issueId s).bladeType = s.bladeType ∧ (issueId s).ownDraw = s.ownDraw
      ∧ (issueId s).ownGrant = s.ownGrant ∧ (issueId s).slab = s.slab ∧ (issueId s).jobEntry = s.jobEntry := by
  simp [State.cfg, State.station, State.role, State.now, State.joined, State.inService,
    State.bladeType, State.ownDraw, State.ownGrant, State.slab, State.jobEntry, funext_iff]

@[simp] theorem endStep_fields (k : Nat) (s : State) :
    (endStep k s).pending = s.pending ∧ (endStep k s).freeCount = s.freeCount
      ∧ (endStep k s).boot.runState = s.boot.runState ∧ (endStep k s).boot.phase = s.boot.phase
      ∧ (endStep k s).boot.shopTime = s.boot.shopTime ∧ (endStep k s).boot.config = s.boot.config
      ∧ (endStep k s).boot.epoch = s.boot.epoch ∧ (endStep k s).boot.advanced = s.boot.advanced
      ∧ (endStep k s).boot.listenOnly = s.boot.listenOnly ∧ (endStep k s).boot.eeprom = s.boot.eeprom
      ∧ (endStep k s).port.portErrors = s.port.portErrors ∧ (endStep k s).line.driving = s.line.driving
      ∧ (endStep k s).line.framesSent = s.line.framesSent ∧ (endStep k s).line.deferrals = s.line.deferrals
      ∧ (endStep k s).line.receiveErrors = s.line.receiveErrors
      ∧ (endStep k s).line.midFrame = s.line.midFrame
      ∧ (endStep k s).stock.answerBatch = s.stock.answerBatch
      ∧ (endStep k s).stock.answerTouched = s.stock.answerTouched ∧ (endStep k s).cut.blade = s.cut.blade
      ∧ (endStep k s).cut.parked = s.cut.parked ∧ (endStep k s).cut.priming = s.cut.priming
      ∧ (endStep k s).water = s.water ∧ (endStep k s).plant = s.plant := by
  unfold endStep
  try dsimp only
  (repeat' split) <;> simp

@[simp] theorem endStep_views (k : Nat) (s : State) :
    (endStep k s).cfg = s.cfg ∧ (endStep k s).station = s.station ∧ (endStep k s).role = s.role
      ∧ (endStep k s).now = s.now ∧ (endStep k s).joined = s.joined ∧ (endStep k s).inService = s.inService
      ∧ (endStep k s).bladeType = s.bladeType ∧ (endStep k s).ownDraw = s.ownDraw
      ∧ (endStep k s).ownGrant = s.ownGrant := by
  simp [State.cfg, State.station, State.role, State.now, State.joined, State.inService,
    State.bladeType, State.ownDraw, State.ownGrant]

@[simp] theorem adoptPlan_fields (p : Plan) (s : State) :
    (adoptPlan p s).pending = s.pending ∧ (adoptPlan p s).freeCount = s.freeCount
      ∧ (adoptPlan p s).boot.runState = s.boot.runState ∧ (adoptPlan p s).boot.phase = s.boot.phase
      ∧ (adoptPlan p s).boot.shopTime = s.boot.shopTime ∧ (adoptPlan p s).boot.config = s.boot.config
      ∧ (adoptPlan p s).boot.epoch = s.boot.epoch ∧ (adoptPlan p s).boot.advanced = s.boot.advanced
      ∧ (adoptPlan p s).boot.listenOnly = s.boot.listenOnly ∧ (adoptPlan p s).boot.eeprom = s.boot.eeprom
      ∧ (adoptPlan p s).port.outstanding = s.port.outstanding
      ∧ (adoptPlan p s).port.portErrors = s.port.portErrors ∧ (adoptPlan p s).line = s.line
      ∧ (adoptPlan p s).stock = s.stock ∧ (adoptPlan p s).cut.held = s.cut.held
      ∧ (adoptPlan p s).cut.blade = s.cut.blade ∧ (adoptPlan p s).cut.parked = s.cut.parked
      ∧ (adoptPlan p s).cut.priming = s.cut.priming ∧ (adoptPlan p s).cut.splitLeft = s.cut.splitLeft
      ∧ (adoptPlan p s).water = s.water ∧ (adoptPlan p s).plant = s.plant
      ∧ (adoptPlan p s).cost.log = s.cost.log ∧ (adoptPlan p s).cost.armed = s.cost.armed := by
  unfold adoptPlan
  exact ⟨(foldl_keeps _ (fun t : State => t.pending) (fun t a => by simp) _ _).trans (by simp),
    (foldl_keeps _ (fun t : State => t.freeCount) (fun t a => by simp) _ _).trans (by simp),
    (foldl_keeps _ (fun t : State => t.boot.runState) (fun t a => by simp) _ _).trans (by simp),
    (foldl_keeps _ (fun t : State => t.boot.phase) (fun t a => by simp) _ _).trans (by simp),
    (foldl_keeps _ (fun t : State => t.boot.shopTime) (fun t a => by simp) _ _).trans (by simp),
    (foldl_keeps _ (fun t : State => t.boot.config) (fun t a => by simp) _ _).trans (by simp),
    (foldl_keeps _ (fun t : State => t.boot.epoch) (fun t a => by simp) _ _).trans (by simp),
    (foldl_keeps _ (fun t : State => t.boot.advanced) (fun t a => by simp) _ _).trans (by simp),
    (foldl_keeps _ (fun t : State => t.boot.listenOnly) (fun t a => by simp) _ _).trans (by simp),
    (foldl_keeps _ (fun t : State => t.boot.eeprom) (fun t a => by simp) _ _).trans (by simp),
    (foldl_keeps _ (fun t : State => t.port.outstanding) (fun t a => by simp) _ _).trans (by simp),
    (foldl_keeps _ (fun t : State => t.port.portErrors) (fun t a => by simp) _ _).trans (by simp),
    (foldl_keeps _ (fun t : State => t.line) (fun t a => by simp) _ _).trans (by simp),
    (foldl_keeps _ (fun t : State => t.stock) (fun t a => by simp) _ _).trans (by simp),
    (foldl_keeps _ (fun t : State => t.cut.held) (fun t a => by simp) _ _).trans (by simp),
    (foldl_keeps _ (fun t : State => t.cut.blade) (fun t a => by simp) _ _).trans (by simp),
    (foldl_keeps _ (fun t : State => t.cut.parked) (fun t a => by simp) _ _).trans (by simp),
    (foldl_keeps _ (fun t : State => t.cut.priming) (fun t a => by simp) _ _).trans (by simp),
    (foldl_keeps _ (fun t : State => t.cut.splitLeft) (fun t a => by simp) _ _).trans (by simp),
    (foldl_keeps _ (fun t : State => t.water) (fun t a => by simp) _ _).trans (by simp),
    (foldl_keeps _ (fun t : State => t.plant) (fun t a => by simp) _ _).trans (by simp),
    (foldl_keeps _ (fun t : State => t.cost.log) (fun t a => by simp) _ _).trans (by simp),
    (foldl_keeps _ (fun t : State => t.cost.armed) (fun t a => by simp) _ _).trans (by simp)⟩

@[simp] theorem adoptPlan_views (p : Plan) (s : State) :
    (adoptPlan p s).cfg = s.cfg ∧ (adoptPlan p s).station = s.station ∧ (adoptPlan p s).role = s.role
      ∧ (adoptPlan p s).now = s.now ∧ (adoptPlan p s).joined = s.joined
      ∧ (adoptPlan p s).inService = s.inService ∧ (adoptPlan p s).bladeType = s.bladeType
      ∧ (adoptPlan p s).ownDraw = s.ownDraw ∧ (adoptPlan p s).ownGrant = s.ownGrant
      ∧ (adoptPlan p s).slab = s.slab := by
  simp [State.cfg, State.station, State.role, State.now, State.joined, State.inService,
    State.bladeType, State.ownDraw, State.ownGrant, State.slab, funext_iff]

end Sys2Proof.Machine
end

