-- ==== Sys2Proof/Laws/Shared.lean ====
section
/-! SUPPORT. For the operations most rules pass through, one lemma each of what it does: the gate of a command, the
queuing of its notice, a notice heard, the head revalidated, the head leaving the queue, a held
expiry, the draw table; which frames read as a notice or a command. -/

namespace Sys2Proof.Machine

/-! ### Commands -/

/-- A command that reaches its owner with its fields in range is the owner's alone. -/
theorem gate_of_reaches {c : Cmd} {s : State} (h : Reaches c s) (owner : State → State) :
    gate c true owner s = owner s := by
  obtain ⟨hb, hj, ho, hr⟩ := h
  have ht : gateTest c true s = none := by
    simp [State.joined] at hj
    simp [gateTest, ho, hr]
    rcases hj with hj | hj <;> simp [hj]
  simp [gate, hb, ht]

/-- A command whose field is out of range is answered BAD FIELD. -/
theorem gate_badField {c : Cmd} {s : State} (h : Reaches c s) (owner : State → State) :
    gate c false owner s = reply c .badField .none s := by
  obtain ⟨hb, hj, ho, hr⟩ := h
  have ht : gateTest c false s = some .badField := by
    simp [State.joined] at hj
    simp [gateTest, ho, hr]
    rcases hj with hj | hj <;> simp [hj]
  simp [gate, hb, ht]

/-- One entry put into a queue with room joins its tail. -/
theorem putNotices_open (cause : WaitCause) (e : QEntry) (l : Line) (h : l.queue.length < queueMax) :
    putNotices cause [e] l = withEntry e l := by
  obtain ⟨n, hn⟩ : ∃ n, queueMax - l.queue.length = n + 1 := Nat.exists_eq_add_one_of_ne_zero (by omega)
  simp only [putNotices, withEntry, hn]
  simp

/-- A command's notice joins an open queue, and the command is kept. -/
theorem queueCommand_open (c : Cmd) (n : Notice) (s : State) (h : QueueOpen s) :
    queueCommand c n s = Queued c n s := by
  obtain ⟨hl, hq⟩ := h
  simp [queueCommand, hl, Nat.not_le.2 hq, keep, Queued, putNotices_open _ _ _ hq]

/-- In listen-only it is answered SILENT. -/
theorem queueCommand_silent (c : Cmd) (n : Notice) (s : State) (h : s.boot.listenOnly = true) :
    queueCommand c n s = reply c .silent .none s := by
  simp [queueCommand, h]

/-- With the queue full it is answered FULL. -/
theorem queueCommand_full (c : Cmd) (n : Notice) (s : State) (h : s.boot.listenOnly = false)
    (hf : queueMax ≤ s.line.queue.length) : queueCommand c n s = reply c .full .none s := by
  simp [queueCommand, h, hf]

/-- Which of the three a command meets. -/
theorem queueCommand_placed (c : Cmd) (n : Notice) (s : State) : queueCommand c n s = Placed c n s := by
  unfold Placed
  split
  · next h => exact queueCommand_silent c n s h
  · next h =>
    have hl : s.boot.listenOnly = false := by simpa using h
    split
    · next hf => exact queueCommand_full c n s hl hf
    · next hf => exact queueCommand_open c n s ⟨hl, Nat.lt_of_not_le hf⟩

/-- The reply to a command is in the output list. -/
theorem reply_mem (c : Cmd) (st : Status) (b : ReplyBody) (s : State) :
    PortFrame.reply ⟨replyType (cmdCode c), st, b⟩ ∈ (reply c st b s).port.out.map (·.frame) := by
  simp only [reply, replyNow, startTransmit_frames, addReply]
  (repeat' split) <;> simp

/-! ### The shop line -/

/-- A payload of a notice kind spells a notice, whatever its fields carry (R162). -/
theorem decodePayload_isSome (kind : Nat) (p : List Byte) (h1 : 1 ≤ kind) (h2 : kind ≤ 16) :
    (decodePayload kind p).isSome = true := by
  interval_cases kind <;> rfl

/-- An accepted frame carries a notice (R162). -/
theorem decodeFrame_isSome (l : List Byte) (h : frameFault l = none) : (decodeFrame l).isSome = true := by
  have hk : 1 ≤ rd8 l 2 ∧ rd8 l 2 ≤ 16 := by
    unfold frameFault at h
    repeat' split at h
    all_goals first | omega | cases h
  obtain ⟨n, hn⟩ := Option.isSome_iff_exists.1
    (decodePayload_isSome (rd8 l 2) ((l.drop 5).take (rd8 l 4)) hk.1 hk.2)
  simp [decodeFrame, h, hn]

/-- Every frame is an event: a notice heard, or a frame dropped (R162, R163). -/
theorem lineEvent_isSome (l : List Byte) : (Sys2Proof.lineEvent l).isSome = true := by
  unfold Sys2Proof.lineEvent
  split
  · rfl
  · next h => simpa using decodeFrame_isSome l h

/-- The end of a frame on the line: it is taken, or discarded, with the mark of a frame in progress on joining cleared. -/
theorem atFrameEnd_eq (take : State → State) (s : State) :
    (s.joined = true → s.line.access ≠ .sending → s.line.midFrame = false → atFrameEnd take s = take s)
      ∧ (s.joined = true → s.line.access ≠ .sending → s.line.midFrame = true → atFrameEnd take s = joinLine false s)
      ∧ (s.joined = false ∨ s.line.access = .sending → atFrameEnd take s = s) := by
  refine ⟨fun hj ha hm => ?_, fun hj ha hm => ?_, fun h => ?_⟩
  · simp [atFrameEnd, hj, ha, hm]
  · simp [atFrameEnd, hj, ha, hm]
  · simp [atFrameEnd, h]

/-- A frame of another station that passes every check is its owner's alone. -/
theorem hear_of_heard {sender index count : Nat} {n : Notice} {s : State} (h : Heard sender index count n s)
    (apply : State → State) : hear sender index count n apply s = apply s := by
  obtain ⟨hj, ha, hm, h1, h2, hs, hf, hn⟩ := h
  simp [hear, atFrameEnd, judgeFrame, hj, ha, hm, hf, hn, hs]
  omega

/-- The head leaves a queue behind which nothing waits. -/
theorem leaveQueue_noWaiters (e : QEntry) (rest : List QEntry) (s : State) (hq : s.line.queue = e :: rest)
    (hw : s.line.waiters = []) :
    leaveQueue s = { s with line := { s.line with
      queue := rest, access := if rest = [] then .idle else .waitQuiet, driving := [] } } := by
  simp [leaveQueue, dropHead, hq, refill, hw]

/-- An attempt on an empty queue changes nothing. -/
theorem attempt_empty (stillQuiet quiet : Bool) (fuel : Nat) (s : State) (h : s.line.queue = []) :
    attempt stillQuiet fuel quiet s = s := by
  cases fuel <;> simp [attempt, h]

/-- An owner does not look at what the receiver has met on joining. -/
theorem revalidate_joinLine (b : Bool) (s : State) (e : QEntry) : revalidate (joinLine b s) e = revalidate s e := rfl

theorem joinLine_queue (b : Bool) (s : State) : (joinLine b s).line.queue = s.line.queue := rfl

/-- The head is sent as its owner gives it. -/
theorem quietElapsed_send (quiet : Bool) (e e' : QEntry) (rest : List QEntry) (s : State) (hj : s.joined = true)
    (hq : s.line.queue = e :: rest) (ha : s.line.access = .waitQuiet) (hr : revalidate s e = .send e') :
    quietElapsed quiet s = { s with line := { s.line with
      queue := { e' with attempts := e'.attempts + 1 } :: rest
      access := .sending, midFrame := false
      driving := encodeFrame s.station e'.index e'.count e'.notice } } := by
  obtain ⟨n, hn⟩ : ∃ n, attemptFuel s = n + 1 := ⟨_, rfl⟩
  simp [quietElapsed, hj, ha, hn, attempt, hq, revalidate_joinLine, hr, beginSending]

/-- The head is withdrawn by its owner; what is left is attempted in turn. -/
theorem quietElapsed_withdraw (quiet : Bool) (e : QEntry) (rest : List QEntry) (code : Status) (s : State)
    (hj : s.joined = true) (hq : s.line.queue = e :: rest) (ha : s.line.access = .waitQuiet)
    (hr : revalidate s e = .withdraw code) :
    quietElapsed quiet s
      = attempt quiet ((allEntries s.line).length + 2) quiet (withdrawn e code (joinLine false s)) := by
  rw [quietElapsed, if_pos ⟨hj, ha⟩, show attemptFuel s = (allEntries s.line).length + 2 + 1 from rfl, attempt,
    joinLine_queue, hq]
  simp only [revalidate_joinLine, hr]

/-! ### Stock -/

/-- The view gives a slab under its own id. -/
theorem slab_id {s : State} {id : SlabId} {v : SlabRecord} (h : s.slab id = some v) : v.id = id := by
  simp only [State.slab, findSlab, Option.map_eq_some_iff] at h
  obtain ⟨e, he, rfl⟩ := h
  simpa using List.find?_some he

/-- R14: a held expiry takes effect as its LOAD or FREE leaves: nothing while the slab is no longer CLAIMED here, else
LAPSED and a LAPSE. -/
theorem releaseExpiry_held (e : QEntry) (r v : SlabRecord) (s : State) (hn : holdsExpiry r.id e = true)
    (hh : s.cut.held = some r.id) (hx : s.stock.heldExpiry = true) (hv : s.slab r.id = some v) :
    (¬ (v.state = .claimed ∧ v.holder = some s.station) →
      releaseExpiry e s = { s with stock := { s.stock with heldExpiry := false } })
    ∧ (v.state = .claimed → v.holder = some s.station → s.boot.listenOnly = false → s.line.queue.length < queueMax →
      releaseExpiry e s = { emit (.lapsed v.id) { s with stock := { s.stock with heldExpiry := false } } with
        line := withEntry (entry (.lapse v.version (freedRecord v)) none) s.line }) := by
  have hs : State.heldSlab { s with stock := { s.stock with heldExpiry := false } } = some v := by
    simp [State.heldSlab, hh]; exact hv
  have hst : State.station { s with stock := { s.stock with heldExpiry := false } } = s.station := rfl
  constructor
  · intro hc
    simp [releaseExpiry, hh, hx, hn, lapse, hs, hst]
    intro a b; exact absurd ⟨a, b⟩ hc
  · intro hc ho hl hq
    simp [releaseExpiry, hh, hx, hn, lapse, hs, hst, hc, ho, queueNotices, hl, putNotices_open _ _ _ hq]

/-- A notice whose precondition version is the view's and whose precondition holds is applied by its kind. -/
theorem applyChecked_holds (k : StockKind) (sender pre : Nat) (r v : SlabRecord) (cmd : Option Cmd) (s : State)
    (hv : s.slab r.id = some v) (hp : v.version = pre) (hk : precondition k sender r v = true) :
    applyChecked k sender pre r cmd s = stockEffects k sender r v cmd (writeSlab r s) := by
  simp [applyChecked, hv, hp, hk]

/-- A record that is neither newer nor answers the view's version is ignored. -/
theorem applyChecked_ignored (k : StockKind) (sender pre : Nat) (r v : SlabRecord) (s : State)
    (hv : s.slab r.id = some v) (hp : v.version ≠ pre) (hn : newer r.version v.version = false) :
    applyChecked k sender pre r none s = s := by
  have hp' : pre ≠ v.version := fun h => hp h.symm
  simp [applyChecked, hv, hp', hn, answer]

/-! ### The draw table -/

/-- An entry just put in its place is the one found there. -/
@[simp] theorem findDraw_putDraw (d : DrawEntry) (ds : List DrawEntry) :
    findDraw (putDraw d ds) d.station = some d := by
  induction ds with
  | nil => simp [putDraw, findDraw]
  | cons e es ih =>
    unfold putDraw
    split
    · simp [findDraw]
    · split
      · simp [findDraw]
      · rename_i h _
        simp only [findDraw, List.find?] at ih ⊢
        simp only [show decide (e.station = d.station) = false from by simpa using Ne.symm h]
        exact ih

/-- Putting an entry leaves what is found of the others. -/
theorem findDraw_putDraw_ne (d : DrawEntry) (ds : List DrawEntry) (n : Nat) (h : n ≠ d.station) :
    findDraw (putDraw d ds) n = findDraw ds n := by
  have hd : decide (d.station = n) = false := by simpa using fun e => h e.symm
  induction ds with
  | nil => simp [putDraw, findDraw, hd]
  | cons e es ih =>
    unfold putDraw
    split
    · rename_i he
      have : decide (e.station = n) = false := by rw [← he]; exact hd
      simp [findDraw, List.find?, hd, this]
    · split
      · simp [findDraw, List.find?, hd]
      · simp only [findDraw, List.find?] at ih ⊢
        split
        · rfl
        · exact ih

/-- The fit rule changes nothing but grants. -/
@[simp] theorem takeExcess_stations (ds : List DrawEntry) (x : Nat) :
    (takeExcess ds x).1.map (·.station) = ds.map (·.station) := by
  induction ds with
  | nil => rfl
  | cons e es ih => unfold takeExcess; dsimp only; split <;> simp [ih]

@[simp] theorem fitTable_stations (capacity : Nat) (ds : List DrawEntry) :
    (fitTable capacity ds).map (·.station) = ds.map (·.station) := by
  simp [fitTable]

end Sys2Proof.Machine
end

