-- ==== Sys2Proof/Laws/Recording.lean ====
section
/-! SUPPORT. What the stock unit makes of the records of an own SPLIT (R5, R21 to R23): the parent CUT in its place, each
child recorded. -/

namespace Sys2Proof.Machine

/-- R5: the stock table after a slab it does not hold has been recorded as FREE, or has found no room. -/
def placed (t : List StockEntry) (r : SlabRecord) : List StockEntry :=
  if t.length < 200 then t ++ [⟨r, none⟩]
  else if (t.any fun x => isHistory x.slab) = true then t.eraseP (fun x => isHistory x.slab) ++ [⟨r, none⟩]
  else t

/-- R5: a slab that is not recorded, nor there before, is unknown. -/
theorem findSlab_placed (t : List StockEntry) (r : SlabRecord) (id : SlabId) (h : findSlab t id = none)
    (hr : r.id ≠ id) : findSlab (placed t r) id = none := by
  have hn : ∀ x ∈ t, x.slab.id ≠ id := by simpa [findSlab] using h
  have : ∀ x ∈ placed t r, x.slab.id ≠ id := by
    intro x hx
    unfold placed at hx
    repeat' split at hx
    · simp only [List.mem_append, List.mem_singleton] at hx
      rcases hx with hx | rfl
      · exact hn x hx
      · exact hr
    · simp only [List.mem_append, List.mem_singleton] at hx
      rcases hx with hx | rfl
      · exact hn x (List.eraseP_subset hx)
      · exact hr
    · exact hn x hx
  simpa [findSlab] using this

/-- R5, R21: a child of the own split that the station does not know is recorded, or lost with STOCK_FULL. -/
theorem applyPlain_child (r : SlabRecord) (s : State) (hf : r.state = .free) (hu : s.slab r.id = none)
    (hs : s.cut.state = .splitting) :
    applyPlain r s = { s with
      stock := { s.stock with table := placed s.stock.table r }
      boot := (applyPlain r s).boot, port := (applyPlain r s).port }
    ∧ (s.stock.table.length < 200 ∨ (s.stock.table.any fun x => isHistory x.slab) = true →
      (applyPlain r s).boot = s.boot ∧ (applyPlain r s).port = s.port)
    ∧ (200 ≤ s.stock.table.length → (s.stock.table.any fun x => isHistory x.slab) = false →
      (applyPlain r s).boot.faults.stockFull = true) := by
  have ha : adoptable s r = r := by simp [adoptable, heldBy, showsHeld, hf]
  have hw : watchFor s r = none := by simp [watchFor, hf]
  have he : endsHold s r = false := by simp [endsHold, hs]
  have : applyPlain r s = recordNew r s := by simp [applyPlain, hu, adopt, ha, he]
  rw [this]
  unfold recordNew recordIn placed stockMax
  rw [hw]
  by_cases h1 : s.stock.table.length < 200
  · simp [h1]
  · by_cases h2 : (s.stock.table.any fun x => isHistory x.slab) = true
    · simp [h1, h2]
    · simp [h1, h2, raise, setFlag]

/-- R5, R21: the children of one fragment. -/
theorem applySplit_children (own pre : Nat) (rs : List SlabRecord) (s : State)
    (h : ∀ r ∈ rs, r.state = .free ∧ s.slab r.id = none) (hd : (rs.map (·.id)).Nodup)
    (hs : s.cut.state = .splitting) :
    let t := applySplit own pre rs s
    t = { s with
      stock := { s.stock with table := rs.foldl placed s.stock.table }, boot := t.boot, port := t.port }
    ∧ (s.stock.table.length + rs.length ≤ 200 → t.boot = s.boot ∧ t.port = s.port) := by
  induction rs generalizing s with
  | nil => exact ⟨rfl, fun _ => ⟨rfl, rfl⟩⟩
  | cons r rs ih =>
    obtain ⟨hf, hu⟩ := h r (by simp)
    obtain ⟨h1, h2, -⟩ := applyPlain_child r s hf hu hs
    simp only [List.map_cons, List.nodup_cons] at hd
    have hrec : applySplitRecord own pre s r = applyPlain r s := by simp [applySplitRecord, hf]
    have hrest : ∀ r' ∈ rs, r'.state = .free ∧ (applyPlain r s).slab r'.id = none := by
      intro r' hr'
      obtain ⟨a, b⟩ := h r' (by simp [hr'])
      refine ⟨a, ?_⟩
      rw [h1]
      simp only [State.slab, Option.map_eq_none_iff] at b ⊢
      exact findSlab_placed _ _ _ b fun e => hd.1 (e ▸ List.mem_map_of_mem hr')
    have hs' : (applyPlain r s).cut.state = .splitting := by rw [h1]; exact hs
    obtain ⟨i1, i2⟩ := ih (applyPlain r s) hrest hd.2 hs'
    have hstep : applySplit own pre (r :: rs) s = applySplit own pre rs (applyPlain r s) := by
      simp [applySplit, hrec]
    dsimp only at i1 i2 ⊢
    rw [hstep]
    refine ⟨?_, fun hl => ?_⟩
    · rw [i1]
      generalize (applySplit own pre rs (applyPlain r s)) = t
      rw [h1]
      rfl
    · have hl' : s.stock.table.length < 200 := by simp at hl; omega
      obtain ⟨b1, b2⟩ := h2 (.inl hl')
      have : (applyPlain r s).stock.table.length + rs.length ≤ 200 := by
        rw [h1]; simp [placed, hl'] at hl ⊢; omega
      obtain ⟨c1, c2⟩ := i2 this
      exact ⟨c1.trans b1, c2.trans b2⟩

/-- R21: the parent's record of the own split, while the station holds the slab LOADED. -/
theorem applySplitRecord_parent (pre : Nat) (r v : SlabRecord) (s : State) (hc : r.state = .cut)
    (hv : s.slab r.id = some v) (hp : v.version = pre) (hl : v.state = .loaded) (hh : v.holder = some s.station) :
    applySplitRecord s.station pre s r = { s with
      stock := { s.stock with table := s.stock.table.map fun x => if x.slab.id = r.id then ⟨r, none⟩ else x }
      plan := { s.plan with plan := none } } := by
  unfold applySplitRecord
  rw [if_pos hc, applyChecked_holds _ _ _ _ v _ _ hv hp (by simp [precondition, hl, hh])]
  simp [stockEffects, writeSlab, setSlab, watchFor, hc, State.station, State.cfg]

/-- R21: the records of one fragment of the own split: the parent's, or none, then children the station does not know. -/
theorem applySplit_own (pre : Nat) (first children : List SlabRecord) (s : State)
    (h1 : first = [] ∨ ∃ r v, first = [r] ∧ r.state = .cut ∧ s.slab r.id = some v ∧ v.version = pre
      ∧ v.state = .loaded ∧ v.holder = some s.station)
    (h2 : ∀ r ∈ children, r.state = .free ∧ s.slab r.id = none) (h3 : (children.map (·.id)).Nodup)
    (h4 : s.cut.state = .splitting) :
    let t := applySplit s.station pre (first ++ children) s
    t = { s with
      stock := { s.stock with table := children.foldl placed (match first with
        | [] => s.stock.table
        | r :: _ => s.stock.table.map fun x => if x.slab.id = r.id then ⟨r, none⟩ else x) }
      plan := (if first = [] then s.plan else { s.plan with plan := none })
      boot := t.boot, port := t.port }
    ∧ (s.stock.table.length + children.length ≤ 200 → t.boot = s.boot ∧ t.port = s.port) := by
  obtain rfl | ⟨r, v, rfl, hc, hv, hp, hl, hh⟩ := h1
  · exact applySplit_children s.station pre children s h2 h3 h4
  · have hs : applySplit s.station pre ([r] ++ children) s
        = applySplit s.station pre children (applySplitRecord s.station pre s r) := rfl
    dsimp only
    rw [hs, applySplitRecord_parent pre r v s hc hv hp hl hh]
    have := applySplit_children s.station pre children { s with
      stock := { s.stock with table := s.stock.table.map fun x => if x.slab.id = r.id then ⟨r, none⟩ else x }
      plan := { s.plan with plan := none } } (fun r' hr' => ⟨(h2 r' hr').1, by
        have := (h2 r' hr').2
        simp only [State.slab, findSlab, Option.map_eq_none_iff, List.find?_eq_none, List.mem_map] at this ⊢
        rintro x ⟨y, hy, rfl⟩
        have := this y hy
        split
        · next he => simpa [← he] using this
        · exact this⟩) h3 h4
    dsimp only at this
    exact ⟨by rw [this.1]; simp, by simpa using this.2⟩

/-- The records of a SPLIT leave the costing unit as it is. -/
theorem applySplit_cost (sender pre : Nat) (rs : List SlabRecord) (s : State) :
    (applySplit sender pre rs s).cost = s.cost := by
  refine foldl_keeps _ (fun t : State => t.cost) (fun t a => ?_) _ _
  unfold applySplitRecord applyChecked
  repeat' split
  all_goals simp [answer, stockEffects]
  split <;> simp

theorem ownSplit_cost (pre : Nat) (rs : List SlabRecord) (s : State) : (ownSplit pre rs s).cost = s.cost := by
  unfold ownSplit
  dsimp only
  split <;> simp [applySplit_cost]

theorem writeSplit_cost (pre : Nat) (fs : List (List SlabRecord)) (s : State) : (writeSplit pre fs s).cost = s.cost :=
  foldl_keeps _ (fun t : State => t.cost) (fun t a => ownSplit_cost pre a t) _ _

end Sys2Proof.Machine
end

