-- ==== Sys2Proof/Laws/Charges.lean ====
section
/-! SUPPORT. What the costing unit makes of the job table: the creation rule (R143), own charges while the log has room
(R145, R146), and the charges of a split in their order (R101). -/

namespace Sys2Proof.Machine

/-- R143: the job table after an event has required a job to be created OPEN, known or not. -/
def jobsWith (now : Nat) (jobs : List JobEntry) (j : Nat) : List JobEntry :=
  if jobs.any (fun x => decide (x.job = j)) = true then jobs
  else if jobs.length < 64 then jobs ++ [newJob j .opened now]
  else if jobs.any (fun x => decide (x.state = .closed)) = true then
    jobs.eraseP (fun x => decide (x.state = .closed)) ++ [newJob j .opened now]
  else jobs

/-- R145: an entry after a charge, in the disposition its state gives. -/
def posted (now : Nat) (c : Tally) (x : JobEntry) : JobEntry :=
  match x.state with
  | .opened => { x with
      time := min (x.time + c.time) 999999999, water := min (x.water + c.water) 999999999
      wear := min (x.wear + c.wear) 999999999, slab := min (x.slab + c.slab) 999999999
      volume := min (x.volume + c.volume) 999999999
      length := min (x.length + (x.carry + c.length) / 10) 999999999
      carry := (x.carry + c.length) % 10, pieces := min (x.pieces + c.pieces) 65535, lastChange := now }
  | .closed => { x with
      late := min (x.late + (c.time + c.water + c.wear + c.slab)) 999999999, lastChange := now }

/-- R145, R146: the job table after an own charge. -/
def jobsCharged (now : Nat) (jobs : List JobEntry) (c : Tally) : List JobEntry :=
  (jobsWith now jobs c.job).map fun x => if x.job = c.job then posted now c x else x

/-- R143: the creation rule. -/
theorem ensureJob_jobs (j : Nat) (s : State) : (ensureJob j s).cost.jobs = jobsWith s.boot.shopTime s.cost.jobs j := by
  unfold ensureJob jobsWith
  cases h : s.jobEntry j with
  | some e =>
    rw [if_pos (List.any_eq_true.2 ⟨e, List.mem_of_find?_eq_some h, List.find?_some h⟩)]
  | none =>
    have hn : ¬ (s.cost.jobs.any (fun x => decide (x.job = j)) = true) := by
      simp only [List.any_eq_true, not_exists, not_and]
      exact fun x hx => List.find?_eq_none.1 h x hx
    rw [if_neg hn]
    simp only [createJob, createIn]
    by_cases h1 : s.cost.jobs.length < jobMax
    · rw [if_pos h1, if_pos (show s.cost.jobs.length < 64 from h1)]; rfl
    · rw [if_neg h1, if_neg (show ¬ s.cost.jobs.length < 64 from h1)]
      by_cases h2 : (s.cost.jobs.any fun x => decide (x.state = .closed)) = true
      · rw [if_pos h2, if_pos h2]; rfl
      · rw [if_neg h2, if_neg h2]; simp

/-- R45: jobs created one after another. -/
theorem ensureJobs_jobs (js : List Nat) (s : State) :
    (js.foldl (fun s j => ensureJob j s) s).cost.jobs = js.foldl (jobsWith s.boot.shopTime) s.cost.jobs := by
  induction js generalizing s with
  | nil => rfl
  | cons j js ih => simp only [List.foldl_cons]; rw [ih, ensureJob_jobs]; simp

/-- R145, R148: a charge to the job table. -/
theorem addCharge_jobs (c : Tally) (s : State) :
    (addCharge c s).cost.jobs = jobsCharged s.boot.shopTime s.cost.jobs c := by
  have h : (addCharge c s).cost.jobs = mapJob c.job (chargeEntry c s.boot.shopTime) (ensureJob c.job s).cost.jobs := rfl
  rw [h, ensureJob_jobs]
  refine List.map_congr_left fun e _ => ?_
  cases e with
  | mk _ st => cases st <;> rfl

/-- R145, R153: where an entry found, or none, puts a charge. -/
def disposed : Option JobEntry → Disposition
  | some x => if x.state = .opened then .totals else .late
  | none => .noEntry

/-- R146, R153, R154: the job table and the cost log after an own charge, given with its kind and step. -/
def billed (now : Nat) (id : SlabId) (acc : List JobEntry × List LogRecord) (c : Tally × LogKind × Nat) :
    List JobEntry × List LogRecord :=
  if acc.2.length < 128 then
    (jobsCharged now acc.1 c.1, acc.2 ++ [
      { kind := c.2.1, job := c.1.job, slabId := id, step := c.2.2, time := c.1.time, water := c.1.water
        wear := c.1.wear, slab := c.1.slab, volume := c.1.volume, length := c.1.length, shopTime := now
        disposition := disposed ((jobsWith now acc.1 c.1.job).find? fun x => decide (x.job = c.1.job)) }])
  else ((jobsCharged now acc.1 c.1).map fun x => if x.job = c.1.job then { x with gap := true } else x, acc.2)

/-- R146, R154: an own charge. -/
theorem ownCharge_billed (c : Tally) (k : LogKind) (id : SlabId) (step : Nat) (s : State) :
    ((ownCharge c k id step s).cost.jobs, (ownCharge c k id step s).cost.log)
        = billed s.boot.shopTime id (s.cost.jobs, s.cost.log) (c, k, step)
      ∧ (ownCharge c k id step s).boot.shopTime = s.boot.shopTime := by
  refine ⟨?_, by simp [ownCharge]⟩
  have hl : (addCharge c s).cost.log = s.cost.log := by simp [addCharge]
  have hd : chargeDisposition c.job (ensureJob c.job s)
      = disposed ((jobsWith s.boot.shopTime s.cost.jobs c.job).find? fun x => decide (x.job = c.job)) := by
    rw [← ensureJob_jobs]
    unfold chargeDisposition State.jobEntry findJob
    cases (ensureJob c.job s).cost.jobs.find? fun e => decide (e.job = c.job) with
    | none => rfl
    | some x => cases x with | mk _ st => cases st <;> rfl
  unfold ownCharge offerLog billed
  by_cases h : s.cost.log.length < 128
  · rw [if_pos (by simpa [logMax, hl] using h), if_pos h, hd]
    unfold highWaterAdded
    split <;> simp [addCharge_jobs, State.now]
  · rw [if_neg (by simpa [logMax, hl] using h), if_neg h]
    simp [addCharge_jobs, mapJob]

/-- R101: the charge of a piece outcome, with its kind and step. -/
def pieceCharge (o : Outcome) : Option (Tally × LogKind × Nat) :=
  (pieceJob o).map fun j => (slabCharge j o.amount 1, .slab, 0)

/-- R101: the piece charges. -/
theorem chargePieces_billed (id : SlabId) (os : List Outcome) (s : State) :
    ((chargePieces id os s).cost.jobs, (chargePieces id os s).cost.log)
        = (os.filterMap pieceCharge).foldl (billed s.boot.shopTime id) (s.cost.jobs, s.cost.log)
      ∧ (chargePieces id os s).boot.shopTime = s.boot.shopTime := by
  unfold chargePieces
  induction os generalizing s with
  | nil => exact ⟨rfl, rfl⟩
  | cons o os ih =>
    cases ho : o.kind with
    | piece j tag =>
      have hc : pieceCharge o = some (slabCharge j o.amount 1, .slab, 0) := by simp [pieceCharge, pieceJob, ho]
      simp only [List.foldl_cons, ho, List.filterMap_cons, hc]
      obtain ⟨h1, h2⟩ := ownCharge_billed (slabCharge j o.amount 1) .slab id 0 s
      obtain ⟨i1, i2⟩ := ih (ownCharge (slabCharge j o.amount 1) .slab id 0 s)
      exact ⟨by rw [i1, h1, h2], by rw [i2, h2]⟩
    | remnant _ =>
      have hc : pieceCharge o = none := by simp [pieceCharge, pieceJob, ho]
      simp only [List.foldl_cons, ho, List.filterMap_cons, hc]
      exact ih s
    | waste =>
      have hc : pieceCharge o = none := by simp [pieceCharge, pieceJob, ho]
      simp only [List.foldl_cons, ho, List.filterMap_cons, hc]
      exact ih s

/-- R101: the charges of a split: the pieces', then the loss when there is none. -/
theorem chargeSplit_billed (p : Plan) (w : SplitWork) (s : State) :
    ((chargeSplit p w s).cost.jobs, (chargeSplit p w s).cost.log)
      = (w.outcomes.filterMap pieceCharge
          ++ if noPieces w = true then [(slabCharge p.header.chargeJob w.loss 0, LogKind.slab, 0)] else []).foldl
        (billed s.boot.shopTime p.header.slab) (s.cost.jobs, s.cost.log) := by
  obtain ⟨h1, h2⟩ := chargePieces_billed p.header.slab w.outcomes s
  unfold chargeSplit
  dsimp only
  split
  · rw [(ownCharge_billed _ _ _ _ _).1, h2, h1, List.foldl_append]; rfl
  · simpa using h1

/-- R68, R101: what a completion charges. -/
theorem complete_billed (q : Plan) (s : State) (parent : SlabRecord) (h : s.heldSlab = some parent) :
    let w := splitValue parent.value (parent.length * parent.width) (outcomesOf s q)
    ((complete q s).cost.jobs, (complete q s).cost.log)
      = (w.outcomes.filterMap pieceCharge
          ++ if noPieces w = true then [(slabCharge q.header.chargeJob w.loss 0, LogKind.slab, 0)] else []).foldl
        (billed s.boot.shopTime q.header.slab) (s.cost.jobs, s.cost.log) := by
  intro w
  have := chargeSplit_billed q w { s with
    stock := { s.stock with seqNext := s.stock.seqNext + (keptRegions s q).length }
    plan := { s.plan with plan := some { q with split := some w } } }
  rw [← show _ = _ from this]
  unfold complete
  simp only [h]
  split <;> split <;> simp [w, writeSplit_cost]

end Sys2Proof.Machine
end

