-- ==== Sys2Proof/Laws/LineStream.lean ====
section
/-! SUPPORT. What a receiver of the shop line makes of what the line brings it (R159): bytes discarded to a quiet interval,
a frame taken at its end, a frame cut short. -/

namespace Sys2Proof

open Machine

/-- Bytes are discarded to the next quiet interval. -/
theorem lineReceive_untilQuiet (bytes : List Byte) (rest : List LineInput) :
    lineReceive .untilQuiet (lineBytes bytes ++ .quiet :: rest) = lineReceive (.taking []) rest := by
  induction bytes with
  | nil => rfl
  | cons b bs ih => simpa [lineBytes, lineReceive] using ih

/-- Bytes that do not bring a frame to its end are kept. -/
theorem lineReceive_part (got more : List Byte) (rest : List LineInput)
    (hm : ∀ n, got.length < n → n ≤ (got ++ more).length → lineFrameEnds ((got ++ more).take n) = false) :
    lineReceive (.taking got) (lineBytes more ++ rest) = lineReceive (.taking (got ++ more)) rest := by
  induction more generalizing got with
  | nil => simp [lineBytes]
  | cons b bs ih =>
    have he : lineFrameEnds (got ++ [b]) = false := by
      have := hm (got.length + 1) (by omega) (by simp)
      rwa [show got ++ b :: bs = got ++ [b] ++ bs by simp, List.take_left' (by simp)] at this
    have := ih (got ++ [b]) (by
      intro n h1 h2
      have := hm n (by simp at h1; omega) (by simpa using h2)
      simpa using this)
    simpa [lineBytes, lineReceive, he] using this

/-- A frame is taken at its last byte, whatever follows it. -/
theorem lineReceive_frame (front : List Byte) (last : Byte) (rest : List LineInput)
    (hm : ∀ n, 0 < n → n ≤ front.length → lineFrameEnds (front.take n) = false)
    (he : lineFrameEnds (front ++ [last]) = true) :
    lineReceive (.taking []) (lineBytes (front ++ [last]) ++ rest)
      = lineFrameEvent (front ++ [last]) :: lineReceive .untilQuiet rest := by
  have := lineReceive_part [] front (.byte last :: rest) (by simpa using hm)
  simp only [lineBytes, List.map_append, List.append_assoc, List.map_cons, List.map_nil, List.cons_append,
    List.nil_append] at this ⊢
  rw [this, lineReceive, if_pos he]

/-- A quiet interval ends a frame that has not come to its end. -/
theorem lineReceive_cutShort (part : List Byte) (rest : List LineInput) (hp : part ≠ [])
    (hm : ∀ n, 0 < n → n ≤ part.length → lineFrameEnds (part.take n) = false) :
    lineReceive (.taking []) (lineBytes part ++ .quiet :: rest)
      = lineFrameEvent part :: lineReceive (.taking []) rest := by
  have := lineReceive_part [] part (.quiet :: rest) (by simpa using hm)
  rw [this, List.nil_append, lineReceive, if_neg hp]

/-- No part of a frame of an allowed length ends it. -/
theorem lineFrameEnds_take (l : List Byte) (n : Nat) (h0 : 0 < n) (hh : l.head? = some 0xB4#8)
    (h : n < 5 ∨ (rd8 l 4 ≤ 128 ∧ n < 7 + rd8 l 4)) : lineFrameEnds (l.take n) = false := by
  match l, n, hh, h0 with
  | a :: l, n + 1, hh, _ =>
    have hb : a = 0xB4#8 := by simpa using hh
    have hr : 5 ≤ ((a :: l).take (n + 1)).length → rd8 ((a :: l).take (n + 1)) 4 = rd8 (a :: l) 4 := by
      intro h5
      simp only [List.length_take] at h5
      simp only [rd8, List.getD_eq_getElem?_getD, List.getElem?_take]
      rw [if_pos (by omega)]
    have hg : ((a :: l).take (n + 1)).getD 0 0#8 = 0xB4#8 := by simp [hb]
    unfold lineFrameEnds
    rw [hg]
    by_cases h5 : 5 ≤ ((a :: l).take (n + 1)).length
    · rw [hr h5]
      simp only [List.length_take] at h5 ⊢
      simp only [ne_eq, not_true, decide_false, Bool.false_or, Bool.and_eq_false_imp, Bool.or_eq_false_iff,
        decide_eq_false_iff_not]
      omega
    · rw [decide_eq_false h5]; simp

end Sys2Proof
end

