-- ==== Sys2Proof/Laws/PerInstr.lean ====
section
/-! SUPPORT. Statements about every command and event as syntax, one lemma for each constructor. -/

namespace Sys2Proof.Laws

open Machine

/-- R178, R185: a command whose fields are in their ranges has a type of its own half of the types, bit 7 clear, and a
body that fits a command frame. -/
def FitsFrame.Statement (i : Instr) : Prop :=
  ∀ (cfg : ConfigRecord) (type : Nat) (body : List Byte), fieldsInRange cfg i = true →
    encodeCommand i = some (type, body) → type < 128 ∧ body.length ≤ 1024

/-- A frame that has a short body. -/
theorem FitsFrame.of_body {i : Instr} (hc : ((commandOf i).map cmdCode).getD 0 < 128)
    (hb : ∀ cfg, fieldsInRange cfg i = true → (commandBody i).length ≤ 1024) : FitsFrame.Statement i := by
  intro cfg type body hf he
  cases h : commandOf i with
  | none => simp [encodeCommand, h] at he
  | some c =>
    simp [encodeCommand, h] at he
    exact he.1 ▸ he.2 ▸ ⟨by simpa [h] using hc, hb cfg hf⟩

/-- The entries of a part, each of one length. -/
theorem FitsFrame.flatMap_length {α : Type} (f : α → List Byte) (n : Nat) (h : ∀ a, (f a).length = n)
    (l : List α) : (l.flatMap f).length = n * l.length := by
  induction l with
  | nil => simp
  | cons a as ih => simp [h, ih]; ring

theorem FitsFrame.status : FitsFrame.Statement .status :=
  FitsFrame.of_body (Nat.le_of_ble_eq_true rfl) fun _ _ => Nat.le_of_ble_eq_true rfl

theorem FitsFrame.querySlab (id : SlabId) : FitsFrame.Statement (.querySlab id) :=
  FitsFrame.of_body (Nat.le_of_ble_eq_true rfl) fun _ _ => Nat.le_of_ble_eq_true rfl

theorem FitsFrame.queryJob (job : Nat) : FitsFrame.Statement (.queryJob job) :=
  FitsFrame.of_body (Nat.le_of_ble_eq_true rfl) fun _ _ => Nat.le_of_ble_eq_true rfl

theorem FitsFrame.stockList (start filter : Nat) : FitsFrame.Statement (.stockList start filter) :=
  FitsFrame.of_body (Nat.le_of_ble_eq_true rfl) fun _ _ => Nat.le_of_ble_eq_true rfl

theorem FitsFrame.logRead (count : Nat) : FitsFrame.Statement (.logRead count) :=
  FitsFrame.of_body (Nat.le_of_ble_eq_true rfl) fun _ _ => Nat.le_of_ble_eq_true rfl

theorem FitsFrame.faultRead : FitsFrame.Statement .faultRead :=
  FitsFrame.of_body (Nat.le_of_ble_eq_true rfl) fun _ _ => Nat.le_of_ble_eq_true rfl

theorem FitsFrame.faultAck (kinds : Nat) : FitsFrame.Statement (.faultAck kinds) :=
  FitsFrame.of_body (Nat.le_of_ble_eq_true rfl) fun _ _ => Nat.le_of_ble_eq_true rfl

theorem FitsFrame.clear : FitsFrame.Statement .clear :=
  FitsFrame.of_body (Nat.le_of_ble_eq_true rfl) fun _ _ => Nat.le_of_ble_eq_true rfl

theorem FitsFrame.lineTest : FitsFrame.Statement .lineTest :=
  FitsFrame.of_body (Nat.le_of_ble_eq_true rfl) fun _ _ => Nat.le_of_ble_eq_true rfl

theorem FitsFrame.configWrite (record : List Byte) : FitsFrame.Statement (.configWrite record) := by
  refine FitsFrame.of_body (Nat.le_of_ble_eq_true rfl) fun cfg h => ?_
  simp [fieldsInRange, testedInRange] at h
  simp [commandBody, h]

theorem FitsFrame.claim (id : SlabId) (job priority : Nat) : FitsFrame.Statement (.claim id job priority) :=
  FitsFrame.of_body (Nat.le_of_ble_eq_true rfl) fun _ _ => Nat.le_of_ble_eq_true rfl

theorem FitsFrame.release (id : SlabId) : FitsFrame.Statement (.release id) :=
  FitsFrame.of_body (Nat.le_of_ble_eq_true rfl) fun _ _ => Nat.le_of_ble_eq_true rfl

theorem FitsFrame.load (id : SlabId) : FitsFrame.Statement (.load id) :=
  FitsFrame.of_body (Nat.le_of_ble_eq_true rfl) fun _ _ => Nat.le_of_ble_eq_true rfl

theorem FitsFrame.unload : FitsFrame.Statement .unload :=
  FitsFrame.of_body (Nat.le_of_ble_eq_true rfl) fun _ _ => Nat.le_of_ble_eq_true rfl

theorem FitsFrame.planBegin (header : PlanHeader) : FitsFrame.Statement (.planBegin header) :=
  FitsFrame.of_body (Nat.le_of_ble_eq_true rfl) fun _ _ => Nat.le_of_ble_eq_true rfl

theorem FitsFrame.planPart (steps : List StepEntry) (leaves : List LeafEntry) : FitsFrame.Statement (.planPart steps leaves) := by
  refine FitsFrame.of_body (Nat.le_of_ble_eq_true rfl) fun cfg h => ?_
  have hs := FitsFrame.flatMap_length encodeStepEntry 4 (by simp [encodeStepEntry, w16]) steps
  have hl := FitsFrame.flatMap_length encodeLeafEntry 6 (by simp [encodeLeafEntry, w16]) leaves
  simp only [fieldsInRange, planPartOk, Bool.and_eq_true, decide_eq_true_eq] at h
  obtain ⟨_, ⟨⟨h1, h2⟩, _⟩, _⟩ := h
  unfold partMax at h1 h2
  simp only [commandBody, List.length_cons, List.length_append, hs, hl]
  omega

theorem FitsFrame.planEnd : FitsFrame.Statement .planEnd :=
  FitsFrame.of_body (Nat.le_of_ble_eq_true rfl) fun _ _ => Nat.le_of_ble_eq_true rfl

theorem FitsFrame.planDrop : FitsFrame.Statement .planDrop :=
  FitsFrame.of_body (Nat.le_of_ble_eq_true rfl) fun _ _ => Nat.le_of_ble_eq_true rfl

theorem FitsFrame.planAbort (length : Nat) : FitsFrame.Statement (.planAbort length) :=
  FitsFrame.of_body (Nat.le_of_ble_eq_true rfl) fun _ _ => Nat.le_of_ble_eq_true rfl

theorem FitsFrame.cutAsk : FitsFrame.Statement .cutAsk :=
  FitsFrame.of_body (Nat.le_of_ble_eq_true rfl) fun _ _ => Nat.le_of_ble_eq_true rfl

theorem FitsFrame.cutHalted (length : Nat) : FitsFrame.Statement (.cutHalted length) :=
  FitsFrame.of_body (Nat.le_of_ble_eq_true rfl) fun _ _ => Nat.le_of_ble_eq_true rfl

theorem FitsFrame.cutDone (length : Nat) : FitsFrame.Statement (.cutDone length) :=
  FitsFrame.of_body (Nat.le_of_ble_eq_true rfl) fun _ _ => Nat.le_of_ble_eq_true rfl

theorem FitsFrame.bladeChange (type serial height : Nat) : FitsFrame.Statement (.bladeChange type serial height) :=
  FitsFrame.of_body (Nat.le_of_ble_eq_true rfl) fun _ _ => Nat.le_of_ble_eq_true rfl

theorem FitsFrame.park : FitsFrame.Statement .park :=
  FitsFrame.of_body (Nat.le_of_ble_eq_true rfl) fun _ _ => Nat.le_of_ble_eq_true rfl

theorem FitsFrame.unpark : FitsFrame.Statement .unpark :=
  FitsFrame.of_body (Nat.le_of_ble_eq_true rfl) fun _ _ => Nat.le_of_ble_eq_true rfl

theorem FitsFrame.queryPlan : FitsFrame.Statement .queryPlan :=
  FitsFrame.of_body (Nat.le_of_ble_eq_true rfl) fun _ _ => Nat.le_of_ble_eq_true rfl

theorem FitsFrame.plantReport (level clarifier makeup : Nat) : FitsFrame.Statement (.plantReport level clarifier makeup) :=
  FitsFrame.of_body (Nat.le_of_ble_eq_true rfl) fun _ _ => Nat.le_of_ble_eq_true rfl

theorem FitsFrame.yardIn (cls thickness length width : Nat) (defects : List Defect) (value : Nat) : FitsFrame.Statement (.yardIn cls thickness length width defects value) := by
  refine FitsFrame.of_body (Nat.le_of_ble_eq_true rfl) fun cfg h => ?_
  have hd := FitsFrame.flatMap_length encodeDefect 8 (by simp [encodeDefect, w16]) defects
  simp [fieldsInRange, testedInRange, yardInOk] at h
  simp only [commandBody, List.length_cons, List.length_append, hd]
  simp [w16, w32]
  omega

theorem FitsFrame.scrap (id : SlabId) : FitsFrame.Statement (.scrap id) :=
  FitsFrame.of_body (Nat.le_of_ble_eq_true rfl) fun _ _ => Nat.le_of_ble_eq_true rfl

theorem FitsFrame.forceFree (id : SlabId) : FitsFrame.Statement (.forceFree id) :=
  FitsFrame.of_body (Nat.le_of_ble_eq_true rfl) fun _ _ => Nat.le_of_ble_eq_true rfl

theorem FitsFrame.jobOpen (job : Nat) : FitsFrame.Statement (.jobOpen job) :=
  FitsFrame.of_body (Nat.le_of_ble_eq_true rfl) fun _ _ => Nat.le_of_ble_eq_true rfl

theorem FitsFrame.jobClose (job : Nat) : FitsFrame.Statement (.jobClose job) :=
  FitsFrame.of_body (Nat.le_of_ble_eq_true rfl) fun _ _ => Nat.le_of_ble_eq_true rfl

theorem FitsFrame.waterOverride : FitsFrame.Statement .waterOverride :=
  FitsFrame.of_body (Nat.le_of_ble_eq_true rfl) fun _ _ => Nat.le_of_ble_eq_true rfl

theorem FitsFrame.unknownCommandType (type : Byte) (body : List Byte) : FitsFrame.Statement (.unknownCommandType type body) :=
  FitsFrame.of_body (Nat.le_of_ble_eq_true rfl) fun _ _ => Nat.le_of_ble_eq_true rfl

theorem FitsFrame.commandFrameDropped (bytes : List Byte) (gap : Bool) : FitsFrame.Statement (.commandFrameDropped bytes gap) :=
  FitsFrame.of_body (Nat.le_of_ble_eq_true rfl) fun _ _ => Nat.le_of_ble_eq_true rfl

theorem FitsFrame.outputFrameSent : FitsFrame.Statement .outputFrameSent :=
  FitsFrame.of_body (Nat.le_of_ble_eq_true rfl) fun _ _ => Nat.le_of_ble_eq_true rfl

theorem FitsFrame.yardInNotice (sender : Nat) (record : SlabRecord) : FitsFrame.Statement (.yardInNotice sender record) :=
  FitsFrame.of_body (Nat.le_of_ble_eq_true rfl) fun _ _ => Nat.le_of_ble_eq_true rfl

theorem FitsFrame.claimNotice (sender pre : Nat) (record : SlabRecord) : FitsFrame.Statement (.claimNotice sender pre record) :=
  FitsFrame.of_body (Nat.le_of_ble_eq_true rfl) fun _ _ => Nat.le_of_ble_eq_true rfl

theorem FitsFrame.lapseNotice (sender pre : Nat) (record : SlabRecord) : FitsFrame.Statement (.lapseNotice sender pre record) :=
  FitsFrame.of_body (Nat.le_of_ble_eq_true rfl) fun _ _ => Nat.le_of_ble_eq_true rfl

theorem FitsFrame.freeNotice (sender : Nat) (reason : FreeReason) (pre : Nat) (record : SlabRecord) : FitsFrame.Statement (.freeNotice sender reason pre record) :=
  FitsFrame.of_body (Nat.le_of_ble_eq_true rfl) fun _ _ => Nat.le_of_ble_eq_true rfl

theorem FitsFrame.loadNotice (sender pre : Nat) (record : SlabRecord) : FitsFrame.Statement (.loadNotice sender pre record) :=
  FitsFrame.of_body (Nat.le_of_ble_eq_true rfl) fun _ _ => Nat.le_of_ble_eq_true rfl

theorem FitsFrame.splitNotice (sender index count pre : Nat) (records : List SlabRecord) : FitsFrame.Statement (.splitNotice sender index count pre records) :=
  FitsFrame.of_body (Nat.le_of_ble_eq_true rfl) fun _ _ => Nat.le_of_ble_eq_true rfl

theorem FitsFrame.scrapNotice (sender pre : Nat) (record : SlabRecord) : FitsFrame.Statement (.scrapNotice sender pre record) :=
  FitsFrame.of_body (Nat.le_of_ble_eq_true rfl) fun _ _ => Nat.le_of_ble_eq_true rfl

theorem FitsFrame.stockAskNotice (sender : Nat) : FitsFrame.Statement (.stockAskNotice sender) :=
  FitsFrame.of_body (Nat.le_of_ble_eq_true rfl) fun _ _ => Nat.le_of_ble_eq_true rfl

theorem FitsFrame.stockStateNotice (sender index count : Nat) (records : List SlabRecord) : FitsFrame.Statement (.stockStateNotice sender index count records) :=
  FitsFrame.of_body (Nat.le_of_ble_eq_true rfl) fun _ _ => Nat.le_of_ble_eq_true rfl

theorem FitsFrame.drawNotice (sender request : Nat) (lock : Bool) (grant : Nat) : FitsFrame.Statement (.drawNotice sender request lock grant) :=
  FitsFrame.of_body (Nat.le_of_ble_eq_true rfl) fun _ _ => Nat.le_of_ble_eq_true rfl

theorem FitsFrame.plantNotice (sender capacity fresh : Nat) (stop stale : Bool) : FitsFrame.Statement (.plantNotice sender capacity fresh stop stale) :=
  FitsFrame.of_body (Nat.le_of_ble_eq_true rfl) fun _ _ => Nat.le_of_ble_eq_true rfl

theorem FitsFrame.waterOverrideNotice (sender : Nat) : FitsFrame.Statement (.waterOverrideNotice sender) :=
  FitsFrame.of_body (Nat.le_of_ble_eq_true rfl) fun _ _ => Nat.le_of_ble_eq_true rfl

theorem FitsFrame.tallyNotice (sender : Nat) (tally : Tally) : FitsFrame.Statement (.tallyNotice sender tally) :=
  FitsFrame.of_body (Nat.le_of_ble_eq_true rfl) fun _ _ => Nat.le_of_ble_eq_true rfl

theorem FitsFrame.jobOpenNotice (sender job : Nat) : FitsFrame.Statement (.jobOpenNotice sender job) :=
  FitsFrame.of_body (Nat.le_of_ble_eq_true rfl) fun _ _ => Nat.le_of_ble_eq_true rfl

theorem FitsFrame.jobCloseNotice (sender job : Nat) : FitsFrame.Statement (.jobCloseNotice sender job) :=
  FitsFrame.of_body (Nat.le_of_ble_eq_true rfl) fun _ _ => Nat.le_of_ble_eq_true rfl

theorem FitsFrame.restartNotice (sender : Nat) : FitsFrame.Statement (.restartNotice sender) :=
  FitsFrame.of_body (Nat.le_of_ble_eq_true rfl) fun _ _ => Nat.le_of_ble_eq_true rfl

theorem FitsFrame.frameDropped (bytes : List Byte) : FitsFrame.Statement (.frameDropped bytes) :=
  FitsFrame.of_body (Nat.le_of_ble_eq_true rfl) fun _ _ => Nat.le_of_ble_eq_true rfl

theorem FitsFrame.duplicateNumber : FitsFrame.Statement .duplicateNumber :=
  FitsFrame.of_body (Nat.le_of_ble_eq_true rfl) fun _ _ => Nat.le_of_ble_eq_true rfl

theorem FitsFrame.quietWaitElapsed (stillQuiet : Bool) : FitsFrame.Statement (.quietWaitElapsed stillQuiet) :=
  FitsFrame.of_body (Nat.le_of_ble_eq_true rfl) fun _ _ => Nat.le_of_ble_eq_true rfl

theorem FitsFrame.cleanEcho : FitsFrame.Statement .cleanEcho :=
  FitsFrame.of_body (Nat.le_of_ble_eq_true rfl) fun _ _ => Nat.le_of_ble_eq_true rfl

theorem FitsFrame.echoMismatch : FitsFrame.Statement .echoMismatch :=
  FitsFrame.of_body (Nat.le_of_ble_eq_true rfl) fun _ _ => Nat.le_of_ble_eq_true rfl

theorem FitsFrame.deferralEnd : FitsFrame.Statement .deferralEnd :=
  FitsFrame.of_body (Nat.le_of_ble_eq_true rfl) fun _ _ => Nat.le_of_ble_eq_true rfl

theorem FitsFrame.lineTestEnd (loop : LoopEnd) : FitsFrame.Statement (.lineTestEnd loop) :=
  FitsFrame.of_body (Nat.le_of_ble_eq_true rfl) fun _ _ => Nat.le_of_ble_eq_true rfl

theorem FitsFrame.claimWindowExpiry : FitsFrame.Statement .claimWindowExpiry :=
  FitsFrame.of_body (Nat.le_of_ble_eq_true rfl) fun _ _ => Nat.le_of_ble_eq_true rfl

theorem FitsFrame.orphanWatchExpiry (id : SlabId) : FitsFrame.Statement (.orphanWatchExpiry id) :=
  FitsFrame.of_body (Nat.le_of_ble_eq_true rfl) fun _ _ => Nat.le_of_ble_eq_true rfl

theorem FitsFrame.primingEnd : FitsFrame.Statement .primingEnd :=
  FitsFrame.of_body (Nat.le_of_ble_eq_true rfl) fun _ _ => Nat.le_of_ble_eq_true rfl

theorem FitsFrame.refreshTimerExpiry : FitsFrame.Statement .refreshTimerExpiry :=
  FitsFrame.of_body (Nat.le_of_ble_eq_true rfl) fun _ _ => Nat.le_of_ble_eq_true rfl

theorem FitsFrame.ageTimerExpiry (station : Nat) : FitsFrame.Statement (.ageTimerExpiry station) :=
  FitsFrame.of_body (Nat.le_of_ble_eq_true rfl) fun _ _ => Nat.le_of_ble_eq_true rfl

theorem FitsFrame.plantHeardTimerExpiry : FitsFrame.Statement .plantHeardTimerExpiry :=
  FitsFrame.of_body (Nat.le_of_ble_eq_true rfl) fun _ _ => Nat.le_of_ble_eq_true rfl

theorem FitsFrame.reportTimerExpiry : FitsFrame.Statement .reportTimerExpiry :=
  FitsFrame.of_body (Nat.le_of_ble_eq_true rfl) fun _ _ => Nat.le_of_ble_eq_true rfl

theorem FitsFrame.announceTimerExpiry : FitsFrame.Statement .announceTimerExpiry :=
  FitsFrame.of_body (Nat.le_of_ble_eq_true rfl) fun _ _ => Nat.le_of_ble_eq_true rfl

theorem FitsFrame.powerOn : FitsFrame.Statement .powerOn :=
  FitsFrame.of_body (Nat.le_of_ble_eq_true rfl) fun _ _ => Nat.le_of_ble_eq_true rfl

theorem FitsFrame.autoload (noAcknowledgeAt : Option Nat) : FitsFrame.Statement (.autoload noAcknowledgeAt) :=
  FitsFrame.of_body (Nat.le_of_ble_eq_true rfl) fun _ _ => Nat.le_of_ble_eq_true rfl

theorem FitsFrame.epochWriteBack (result : EpochWrite) : FitsFrame.Statement (.epochWriteBack result) :=
  FitsFrame.of_body (Nat.le_of_ble_eq_true rfl) fun _ _ => Nat.le_of_ble_eq_true rfl

theorem FitsFrame.configRecordWrite (noAcknowledgeAt : Option Nat) : FitsFrame.Statement (.configRecordWrite noAcknowledgeAt) :=
  FitsFrame.of_body (Nat.le_of_ble_eq_true rfl) fun _ _ => Nat.le_of_ble_eq_true rfl

end Sys2Proof.Laws
end

