-- ==== Sys2Proof/Laws/PlanChecks.lean ====
section
/-! SUPPORT. What the checks of PLAN-END answer (R38 to R44), one lemma each; the regions a plan builds (R31, R32); the
jobs a plan creates (R45). -/

namespace Sys2Proof.Machine

/-- A check over a list answers the first element at fault, numbered from 1, or nothing; an element is judged beside
those before it. -/
def FirstFault {α : Type} (f : Option CheckFault) (code : Status) (B : List α → α → Prop) (ss : List α) : Prop :=
  (∀ i a, ss[i]? = some a → B (ss.take i) a → (∀ j b, j < i → ss[j]? = some b → ¬ B (ss.take j) b) →
    f = some (code, i + 1))
  ∧ ((∀ j b, ss[j]? = some b → ¬ B (ss.take j) b) → f = none)

/-- A scan that stops at the first fault, met in the middle of its list. -/
theorem scan_answers {α : Type} (chk : List α → List α → Option CheckFault) (code : Status) (B : List α → α → Prop)
    (h0 : ∀ pre, chk pre [] = none)
    (h1 : ∀ pre a ss, B pre a → chk pre (a :: ss) = some (code, pre.length + 1))
    (h2 : ∀ pre a ss, ¬ B pre a → chk pre (a :: ss) = chk (pre ++ [a]) ss) :
    ∀ (ss pre : List α),
      (∀ i a, pre.length ≤ i → (pre ++ ss)[i]? = some a → B ((pre ++ ss).take i) a →
        (∀ j b, pre.length ≤ j → j < i → (pre ++ ss)[j]? = some b → ¬ B ((pre ++ ss).take j) b) →
        chk pre ss = some (code, i + 1))
      ∧ ((∀ j b, pre.length ≤ j → (pre ++ ss)[j]? = some b → ¬ B ((pre ++ ss).take j) b) → chk pre ss = none) := by
  intro ss
  induction ss with
  | nil =>
    intro pre
    refine ⟨fun i a hi ha => ?_, fun _ => h0 pre⟩
    simp at ha
    have : i < pre.length := by
      rcases Nat.lt_or_ge i pre.length with h | h
      · exact h
      · rw [List.getElem?_eq_none h] at ha; cases ha
    omega
  | cons a ss ih =>
    intro pre
    have ih' := ih (pre ++ [a])
    simp only [List.append_assoc, List.singleton_append, List.length_append, List.length_cons, List.length_nil] at ih'
    have hfirst : (pre ++ a :: ss)[pre.length]? = some a := by simp
    have htk : (pre ++ a :: ss).take pre.length = pre := by simp
    constructor
    · intro i b hi hb hB hmin
      by_cases hi' : i = pre.length
      · subst hi'
        rw [hfirst] at hb; cases hb
        rw [htk] at hB
        exact h1 pre a ss hB
      · have hn : ¬ B pre a := by
          have := hmin pre.length a (Nat.le_refl _) (by omega) hfirst
          rwa [htk] at this
        rw [h2 pre a ss hn]
        exact ih'.1 i b (by omega) hb hB (fun j c hj hj' => hmin j c (by omega) hj')
    · intro hall
      have hn : ¬ B pre a := by
        have := hall pre.length a (Nat.le_refl _) hfirst
        rwa [htk] at this
      rw [h2 pre a ss hn]
      exact ih'.2 (fun j c hj => hall j c (by omega))

/-- A scan that stops at the first fault answers it. -/
theorem firstFault_of_scan {α : Type} (chk : List α → List α → Option CheckFault) (code : Status) (B : List α → α → Prop)
    (h0 : ∀ pre, chk pre [] = none)
    (h1 : ∀ pre a ss, B pre a → chk pre (a :: ss) = some (code, pre.length + 1))
    (h2 : ∀ pre a ss, ¬ B pre a → chk pre (a :: ss) = chk (pre ++ [a]) ss) (ss : List α) :
    FirstFault (chk [] ss) code B ss := by
  have := scan_answers chk code B h0 h1 h2 ss []
  simpa [FirstFault] using this

/-- R39: the step cuts region 0, one not yet made, or one cut before. -/
def RegionFault (pre : List StagedStep) (a : StagedStep) : Prop :=
  a.region = 0 ∨ 2 * (pre.length + 1) - 1 < a.region ∨ ∃ b ∈ pre, b.region = a.region

/-- R39: check 3. -/
theorem checkRegions_spec (ss : List StagedStep) : FirstFault (checkRegions 1 [] ss) .badRegion RegionFault ss :=
  firstFault_of_scan (fun pre ss => checkRegions (pre.length + 1) (pre.map (·.region)).reverse ss) .badRegion RegionFault
    (by intro pre; rfl)
    (by
      intro pre a ss h
      simp only [checkRegions]
      rw [if_pos]
      rcases h with h | h | ⟨b, hb, h⟩
      · exact .inl h
      · exact .inr (.inl h)
      · exact .inr (.inr (by simp; exact ⟨b, hb, h⟩)))
    (by
      intro pre a ss h
      simp only [checkRegions]
      rw [if_neg]
      · simp
      · rintro (h' | h' | h')
        · exact h (.inl h')
        · exact h (.inr (.inl h'))
        · simp at h'
          obtain ⟨b, hb, h'⟩ := h'
          exact h (.inr (.inr ⟨b, hb, h'⟩)))
    ss

/-- R40: check 4. -/
theorem checkGrid_spec (grid : Nat) (ss : List StagedStep) : FirstFault (checkGrid grid 1 ss) .offGrid (fun _ a => ¬ grid ∣ a.offset) ss :=
  firstFault_of_scan (fun pre ss => checkGrid grid (pre.length + 1) ss) .offGrid (fun _ a => ¬ grid ∣ a.offset)
    (by intro pre; rfl)
    (by intro pre a ss h; simp only [checkGrid]; rw [if_pos]; exact fun h' => h (Nat.dvd_of_mod_eq_zero h'))
    (by intro pre a ss h; simp only [checkGrid]; rw [if_neg]; · simp
        · intro h'; exact h (fun h'' => h' (Nat.mod_eq_zero_of_dvd h'')))
    ss

/-- R40: the step's offset or cut length is out of its region, as the steps before it have left the regions. -/
def OffsetFault (kerf : Nat) (r1 : Region) (pre : List StagedStep) (a : StagedStep) : Prop :=
  match findRegion (buildRegions kerf 1 pre [r1]) a.region with
  | none => True
  | some r => a.offset = 0 ∨ extent a.axis r ≤ a.offset + kerf ∨ longestCut < cutLength a.axis r

/-- Regions are built step after step. -/
theorem buildRegions_append (kerf : Nat) : ∀ (pre post : List StagedStep) (k : Nat) (rs : List Region),
    buildRegions kerf k (pre ++ post) rs = buildRegions kerf (k + pre.length) post (buildRegions kerf k pre rs) := by
  intro pre
  induction pre with
  | nil => intro post k rs; simp [buildRegions]
  | cons a pre ih =>
    intro post k rs
    simp only [List.cons_append, buildRegions]
    split
    · rw [ih]; congr 1; simp; omega
    · rw [ih]; congr 1; simp; omega

/-- R40: check 5 on the steps. -/
theorem checkOffsets_spec (kerf : Nat) (r1 : Region) (ss : List StagedStep) : FirstFault (checkOffsets kerf 1 ss [r1]) .outOfRegion (OffsetFault kerf r1) ss :=
  firstFault_of_scan (fun pre ss => checkOffsets kerf (pre.length + 1) ss (buildRegions kerf 1 pre [r1])) .outOfRegion (OffsetFault kerf r1)
    (by intro pre; rfl)
    (by
      intro pre a ss h
      simp only [checkOffsets]
      unfold OffsetFault at h
      split
      · rfl
      · rename_i r hr
        rw [hr] at h
        rw [if_pos h])
    (by
      intro pre a ss h
      simp only [checkOffsets]
      unfold OffsetFault at h
      split
      · rename_i hr; rw [hr] at h; exact absurd trivial h
      · rename_i r hr
        rw [hr] at h
        rw [if_neg h, buildRegions_append]
        simp [buildRegions, hr, Nat.add_comm])
    ss

/-- R41: the leaf names no uncut region, or one named before. -/
def ExtraFault (steps : List StagedStep) (pre : List StagedLeaf) (a : StagedLeaf) : Prop :=
  a.region = 0 ∨ 2 * steps.length + 1 < a.region ∨ (∃ st ∈ steps, st.region = a.region) ∨ ∃ b ∈ pre, b.region = a.region

/-- A region has a cutter when a step cuts it. -/
theorem cutterOf_isSome (steps : List StagedStep) (n : Nat) : (cutterOf steps n).isSome = true ↔ ∃ st ∈ steps, st.region = n := by
  simp [cutterOf]

/-- R41: the first part of check 6. -/
theorem checkLeafExtra_spec (steps : List StagedStep) (ss : List StagedLeaf) : FirstFault (checkLeafExtra steps 1 [] ss) .leafExtra (ExtraFault steps) ss :=
  firstFault_of_scan (fun pre ss => checkLeafExtra steps (pre.length + 1) (pre.map (·.region)).reverse ss) .leafExtra (ExtraFault steps)
    (by intro pre; rfl)
    (by
      intro pre a ss h
      simp only [checkLeafExtra]
      rw [if_pos]
      rcases h with h | h | h | ⟨b, hb, h⟩
      · exact .inl h
      · exact .inr (.inl h)
      · exact .inr (.inr (.inl ((cutterOf_isSome _ _).2 h)))
      · exact .inr (.inr (.inr (by simp; exact ⟨b, hb, h⟩))))
    (by
      intro pre a ss h
      simp only [checkLeafExtra]
      rw [if_neg]
      · simp
      · rintro (h' | h' | h' | h')
        · exact h (.inl h')
        · exact h (.inr (.inl h'))
        · exact h (.inr (.inr (.inl ((cutterOf_isSome _ _).1 h'))))
        · simp at h'
          obtain ⟨b, hb, h'⟩ := h'
          exact h (.inr (.inr (.inr ⟨b, hb, h'⟩))))
    ss

/-- R42: the leaf is a PIECE on a region that a defect overlaps. -/
def DefectFault (defects : List Defect) (rs : List Region) (_ : List StagedLeaf) (f : StagedLeaf) : Prop :=
  f.kind = .piece ∧ ∃ r, findRegion rs f.region = some r ∧ overlapsDefect defects r = true

/-- R42: check 7. -/
theorem checkDefects_spec (defects : List Defect) (rs : List Region) (ss : List StagedLeaf) : FirstFault (checkDefects defects rs 1 ss) .defectInPiece (DefectFault defects rs) ss :=
  firstFault_of_scan (fun pre ss => checkDefects defects rs (pre.length + 1) ss) .defectInPiece (DefectFault defects rs)
    (by intro pre; rfl)
    (by
      rintro pre a ss ⟨h, r, hr, ho⟩
      simp only [checkDefects, h, hr]
      rw [if_pos ho])
    (by
      intro pre a ss h
      simp only [checkDefects]
      split
      · rename_i r hk hr
        rw [if_neg (fun ho => h ⟨hk, r, hr, ho⟩)]; simp
      · simp)
    ss

/-- R39: no step fails check 3. -/
def RegionsSound (ss : List StagedStep) : Prop := ∀ j a, ss[j]? = some a → ¬ RegionFault (ss.take j) a

/-- The first steps of a sound list are sound. -/
theorem RegionsSound.take {ss : List StagedStep} (h : RegionsSound ss) {pre post} (he : ss = pre ++ post) : RegionsSound pre := by
  intro j a hj hb
  subst he
  have hlt : j < pre.length := by
    rcases Nat.lt_or_ge j pre.length with h | h
    · exact h
    · rw [List.getElem?_eq_none h] at hj; cases hj
  apply h j a
  · rw [List.getElem?_append_left hlt]; exact hj
  · rwa [List.take_append_of_le_length (by omega)]

/-- The low child's number. -/
theorem lowChild_number (k a o r) : (lowChild k a o r).number = 2 * k := by cases a <;> rfl

/-- The high child's number. -/
theorem highChild_number (k a o kf r) : (highChild k a o kf r).number = 2 * k + 1 := by cases a <;> rfl

/-- Among distinct numbers a region is found by its own. -/
theorem findRegion_iff {rs : List Region} (hn : (rs.map (·.number)).Nodup) (n : Nat) (r : Region) :
    findRegion rs n = some r ↔ r ∈ rs ∧ r.number = n := by
  constructor
  · intro h
    refine ⟨List.mem_of_find?_eq_some h, ?_⟩
    have := List.find?_some h
    simpa using this
  · rintro ⟨hm, rfl⟩
    induction rs with
    | nil => cases hm
    | cons x xs ih =>
      simp only [List.map_cons, List.nodup_cons] at hn
      simp only [findRegion, List.find?_cons]
      rcases List.mem_cons.1 hm with rfl | hm
      · simp
      · have : x.number ≠ r.number := fun e => hn.1 (e ▸ List.mem_map_of_mem hm)
        simp only [this, decide_false]
        exact ih hn.2 hm

/-- The last step adds its two children, when its region is there. -/
theorem buildRegions_snoc (kerf : Nat) (pre : List StagedStep) (a : StagedStep) (r1 : Region) :
    buildRegions kerf 1 (pre ++ [a]) [r1] =
      match findRegion (buildRegions kerf 1 pre [r1]) a.region with
      | none => buildRegions kerf 1 pre [r1]
      | some r => buildRegions kerf 1 pre [r1]
        ++ [lowChild (pre.length + 1) a.axis a.offset r, highChild (pre.length + 1) a.axis a.offset kerf r] := by
  rw [buildRegions_append]
  cases h : findRegion (buildRegions kerf 1 pre [r1]) a.region <;> simp [buildRegions, h, Nat.add_comm 1 pre.length]

/-- R31, R32: n steps make regions 1 to 2n+1, in order. -/
theorem buildRegions_numbers (kerf : Nat) (r1 : Region) (h1 : r1.number = 1) (ss : List StagedStep) (h : RegionsSound ss) :
    (buildRegions kerf 1 ss [r1]).map (·.number) = List.range' 1 (2 * ss.length + 1) := by
  induction ss using List.reverseRecOn with
  | nil => simp [buildRegions, h1]
  | append_singleton pre a ih =>
    have ih := ih (RegionsSound.take h rfl)
    have ha := h pre.length a (by simp)
    simp [RegionFault] at ha
    rw [buildRegions_snoc]
    cases hf : findRegion (buildRegions kerf 1 pre [r1]) a.region with
    | none =>
      exfalso
      have : a.region ∈ (buildRegions kerf 1 pre [r1]).map (·.number) := by
        rw [ih, List.mem_range'_1]; exact ⟨by omega, by omega⟩
      obtain ⟨r, hr, he⟩ := List.mem_map.1 this
      have := List.find?_eq_none.1 hf r hr
      simp [he] at this
    | some r =>
      simp only [List.map_append, ih, List.map_cons, List.map_nil, lowChild_number, highChild_number, List.length_append, List.length_cons, List.length_nil]
      have e : List.range' 1 (2 * (pre.length + (0 + 1)) + 1)
          = List.range' 1 (2 * pre.length + 1) ++ [2 * (pre.length + 1), 2 * (pre.length + 1) + 1] := by
        rw [show 2 * (pre.length + (0+1)) + 1 = (2 * pre.length + 1) + 1 + 1 from by omega, List.range'_concat, List.range'_concat]
        simp; omega
      rw [e]

/-- The numbers are distinct. -/
theorem buildRegions_nodup (kerf : Nat) (r1 : Region) (h1 : r1.number = 1) (ss : List StagedStep) (h : RegionsSound ss) :
    ((buildRegions kerf 1 ss [r1]).map (·.number)).Nodup := by
  rw [buildRegions_numbers kerf r1 h1 ss h]; exact List.nodup_range'

/-- A later step keeps the regions made before it. -/
theorem buildRegions_extends (kerf : Nat) (r1 : Region) (pre post : List StagedStep) :
    ∃ more, buildRegions kerf 1 (pre ++ post) [r1] = buildRegions kerf 1 pre [r1] ++ more := by
  induction post using List.reverseRecOn with
  | nil => exact ⟨[], by simp⟩
  | append_singleton post a ih =>
    obtain ⟨m, hm⟩ := ih
    rw [← List.append_assoc, buildRegions_snoc]
    split
    · exact ⟨m, hm⟩
    · exact ⟨m ++ _, by rw [hm, List.append_assoc]⟩

/-- A step finds its region among those before it. -/
theorem buildRegions_found (kerf : Nat) (r1 : Region) (h1 : r1.number = 1) (ss : List StagedStep) (h : RegionsSound ss) (j : Nat) (a : StagedStep)
    (hj : ss[j]? = some a) (r : Region) (hr : r ∈ buildRegions kerf 1 ss [r1]) (hn : r.number = a.region) :
    findRegion (buildRegions kerf 1 (ss.take j) [r1]) a.region = some r := by
  have hlt : j < ss.length := by
    rcases Nat.lt_or_ge j ss.length with h | h
    · exact h
    · rw [List.getElem?_eq_none h] at hj; cases hj
  have hp : RegionsSound (ss.take j) := RegionsSound.take h (List.take_append_drop j ss).symm
  have ha := h j a hj
  simp only [RegionFault, List.length_take, Nat.min_eq_left hlt.le] at ha
  have : a.region ∈ (buildRegions kerf 1 (ss.take j) [r1]).map (·.number) := by
    rw [buildRegions_numbers kerf r1 h1 _ hp, List.mem_range'_1, List.length_take, Nat.min_eq_left hlt.le]; exact ⟨by omega, by omega⟩
  obtain ⟨r', hr', he⟩ := List.mem_map.1 this
  have hf := (findRegion_iff (buildRegions_nodup kerf r1 h1 _ hp) a.region r').2 ⟨hr', he⟩
  rw [hf]
  obtain ⟨m, hm⟩ := buildRegions_extends kerf r1 (ss.take j) (ss.drop j)
  rw [List.take_append_drop] at hm
  have hmem : r' ∈ buildRegions kerf 1 ss [r1] := by rw [hm]; exact List.mem_append_left _ hr'
  have e1 := (findRegion_iff (buildRegions_nodup kerf r1 h1 ss h) a.region r').2 ⟨hmem, he⟩
  have e2 := (findRegion_iff (buildRegions_nodup kerf r1 h1 ss h) a.region r).2 ⟨hr, hn⟩
  rw [e1] at e2; exact e2

/-- A step's region is among those built. -/
theorem buildRegions_exists (kerf : Nat) (r1 : Region) (h1 : r1.number = 1) (ss : List StagedStep) (h : RegionsSound ss) (j : Nat) (a : StagedStep)
    (hj : ss[j]? = some a) : ∃ r ∈ buildRegions kerf 1 ss [r1], r.number = a.region := by
  have hlt : j < ss.length := by
    rcases Nat.lt_or_ge j ss.length with h | h
    · exact h
    · rw [List.getElem?_eq_none h] at hj; cases hj
  have ha := h j a hj
  simp only [RegionFault, List.length_take, Nat.min_eq_left hlt.le] at ha
  have : a.region ∈ (buildRegions kerf 1 ss [r1]).map (·.number) := by
    rw [buildRegions_numbers kerf r1 h1 _ h, List.mem_range'_1]; exact ⟨by omega, by omega⟩
  obtain ⟨r', hr', he⟩ := List.mem_map.1 this
  exact ⟨r', hr', he⟩

/-- A step's children are among the regions built. -/
theorem buildRegions_children (kerf : Nat) (r1 : Region) (h1 : r1.number = 1) (ss : List StagedStep) (h : RegionsSound ss) (j : Nat) (a : StagedStep)
    (hj : ss[j]? = some a) (r : Region) (hr : r ∈ buildRegions kerf 1 ss [r1]) (hn : r.number = a.region) :
    lowChild (j + 1) a.axis a.offset r ∈ buildRegions kerf 1 ss [r1]
    ∧ highChild (j + 1) a.axis a.offset kerf r ∈ buildRegions kerf 1 ss [r1] := by
  have hlt : j < ss.length := by
    rcases Nat.lt_or_ge j ss.length with h | h
    · exact h
    · rw [List.getElem?_eq_none h] at hj; cases hj
  have hf := buildRegions_found kerf r1 h1 ss h j a hj r hr hn
  obtain ⟨m, hm⟩ := buildRegions_extends kerf r1 (ss.take j ++ [a]) (ss.drop (j+1))
  have he : ss.take j ++ [a] ++ ss.drop (j+1) = ss := by
    have hget : ss[j] = a := by rw [List.getElem?_eq_getElem hlt] at hj; exact Option.some.inj hj
    rw [List.append_assoc, List.singleton_append, ← hget, List.getElem_cons_drop, List.take_append_drop]
  rw [he, buildRegions_snoc, hf] at hm
  simp only [List.length_take, Nat.min_eq_left hlt.le] at hm
  rw [hm]
  constructor <;> simp

/-- A region's cutter is the one step that cuts it. -/
theorem cutterOf_eq_some (ss : List StagedStep) (h : RegionsSound ss) (n k : Nat) :
    cutterOf ss n = some k ↔ ∃ st, (if k = 0 then none else ss[k - 1]?) = some st ∧ st.region = n := by
  unfold cutterOf
  constructor
  · intro he
    obtain ⟨i, hi, rfl⟩ := Option.map_eq_some_iff.1 he
    obtain ⟨hlt, hp, _⟩ := List.findIdx?_eq_some_iff_getElem.1 hi
    refine ⟨ss[i], ?_, by simpa using hp⟩
    simp [List.getElem?_eq_getElem hlt]
  · rintro ⟨st, hst, rfl⟩
    split at hst
    · cases hst
    · rename_i hk
      have hlt : k - 1 < ss.length := by
        rcases Nat.lt_or_ge (k-1) ss.length with h | h
        · exact h
        · rw [List.getElem?_eq_none h] at hst; cases hst
      rw [Option.map_eq_some_iff]
      refine ⟨k - 1, ?_, by omega⟩
      rw [List.findIdx?_eq_some_iff_getElem]
      have hget : ss[k-1] = st := by rw [List.getElem?_eq_getElem hlt] at hst; exact Option.some.inj hst
      refine ⟨hlt, by simp [hget], ?_⟩
      intro j hj hq
      have hb := h (k-1) st hst
      apply hb
      refine .inr (.inr ⟨ss[j], ?_, by simpa using hq⟩)
      rw [List.mem_take_iff_getElem]
      exact ⟨j, by omega, rfl⟩

/-- The first fault, said of numbers from 1. -/
theorem FirstFault.numbered {α : Type} {f : Option CheckFault} {code} {B : List α → α → Prop} {ss : List α} (h : FirstFault f code B ss) (bad : Nat → Prop)
    (hb : ∀ k, bad k ↔ ∃ a, (if k = 0 then none else ss[k - 1]?) = some a ∧ B (ss.take (k-1)) a) :
    (∀ k, (bad k ∧ ∀ j, j < k → ¬ bad j) → f = some (code, k)) ∧ ((∀ k, ¬ bad k) → f = none) := by
  constructor
  · rintro k ⟨hk, hm⟩
    obtain ⟨a, ha, hB⟩ := (hb k).1 hk
    split at ha
    · cases ha
    · rename_i h0
      have := h.1 (k-1) a ha hB (fun j b hj hjb hjB => hm (j+1) (by omega) ((hb (j+1)).2 ⟨b, by simpa using hjb, by simpa using hjB⟩))
      rw [this]; congr 2; omega
  · intro hn
    apply h.2
    intro j b hj hB
    exact hn (j+1) ((hb (j+1)).2 ⟨b, by simpa using hj, by simpa using hB⟩)

/-- An element before the k-th, said of numbers from 1. -/
theorem exists_mem_take {α : Type} (ss : List α) (k : Nat) (P : α → Prop) :
    (∃ b ∈ ss.take (k - 1), P b) ↔ ∃ j b, j < k ∧ (if j = 0 then none else ss[j - 1]?) = some b ∧ P b := by
  constructor
  · rintro ⟨b, hb, hp⟩
    obtain ⟨i, hi, rfl⟩ := List.mem_iff_getElem.1 hb
    simp at hi
    refine ⟨i+1, _, by omega, ?_, hp⟩
    simp [hi.2]
  · rintro ⟨j, b, hj, hb, hp⟩
    split at hb
    · cases hb
    · refine ⟨b, ?_, hp⟩
      obtain ⟨hlt, rfl⟩ := List.getElem?_eq_some_iff.1 hb
      rw [List.mem_take_iff_getElem]
      exact ⟨j-1, by omega, rfl⟩

/-- The distinct numbers of a list are its numbers. -/
theorem mem_distinct (l : List Nat) (x : Nat) : x ∈ distinct l ↔ x ∈ l := by
  induction l with
  | nil => simp [distinct]
  | cons a l ih => simp [distinct, ih]; by_cases h : x = a <;> simp [h]

/-- They are distinct. -/
theorem nodup_distinct (l : List Nat) : (distinct l).Nodup := by
  induction l with
  | nil => simp [distinct]
  | cons a l ih => simp [distinct]; exact ih.filter _

/-- The jobs of the PIECE leaves, with their leaf indexes. -/
theorem mem_pieceJobs (l : List PlanLeaf) (x : Nat × Nat) : x ∈ pieceJobs l ↔ ∃ f, (if x.2 = 0 then none else l[x.2-1]?) = some f ∧ f.kind = .piece ∧ x.1 = f.job := by
  obtain ⟨j, i⟩ := x
  simp only [pieceJobs, List.mem_map, List.mem_filter]
  constructor
  · rintro ⟨⟨f, n⟩, ⟨hm, hk⟩, he⟩
    simp at he hk
    obtain ⟨rfl, rfl⟩ := he
    have := List.mem_zipIdx hm
    refine ⟨f, ?_, hk, rfl⟩
    obtain ⟨h1, h2, h3⟩ := this
    have e0 : ¬ n = 0 := by omega
    show (if n = 0 then none else l[n-1]?) = some f
    rw [if_neg e0, List.getElem?_eq_getElem (by omega), h3]
  · rintro ⟨f, hf, hk, rfl⟩
    simp at hf
    refine ⟨(f, i), ⟨?_, by simp [hk]⟩, rfl⟩
    obtain ⟨h0, hf⟩ := hf
    obtain ⟨hlt, rfl⟩ := List.getElem?_eq_some_iff.1 hf
    rw [List.mem_iff_getElem]
    refine ⟨i-1, by simpa using hlt, ?_⟩
    simp; omega

/-- The charge job and the piece jobs stand in order of index. -/
theorem pieceJobs_sorted (l : List PlanLeaf) (cj : Nat) : ((cj, 0) :: pieceJobs l).Pairwise (fun a b => a.2 < b.2) := by
  rw [List.pairwise_cons]
  constructor
  · intro x hx
    obtain ⟨f, hf, -⟩ := (mem_pieceJobs l x).1 hx
    by_contra h
    simp at h
    simp [h] at hf
  · unfold pieceJobs
    rw [List.pairwise_map]
    apply List.Pairwise.filter
    rw [List.pairwise_iff_getElem]
    intro i j hi hj hij
    simp; omega

/-- In a list in order of index the least hit is found. -/
theorem find_of_least (l : List (Nat × Nat)) (hs : l.Pairwise (fun a b => a.2 < b.2)) (p : Nat × Nat → Bool) (x) (hx : x ∈ l) (hp : p x = true)
   (hm : ∀ y ∈ l, y.2 < x.2 → p y = false) : l.find? p = some x := by
  induction l with
  | nil => cases hx
  | cons a l ih =>
    rw [List.pairwise_cons] at hs
    rw [List.find?_cons]
    rcases List.mem_cons.1 hx with rfl | hx
    · simp [hp]
    · have := hm a (by simp) (hs.1 x hx)
      simp only [this]
      exact ih hs.2 hx (fun y hy => hm y (by simp [hy]))

/-- R43: demotion leaves the pieces as they are. -/
theorem demote_kind_piece (ml mw rs f) : (demote ml mw rs f).kind = .piece ↔ f.kind = .piece := by
  simp only [demote]
  split
  · cases f.kind <;> simp; split <;> simp
  · simp

/-- R42: a positive overlap on both axes. -/
theorem overlapsDefect_iff (ds : List Defect) (r : Region) : overlapsDefect ds r = true ↔ ∃ d ∈ ds, max d.x r.x < min (d.x + d.length) (r.x + r.length)
        ∧ max d.y r.y < min (d.y + d.width) (r.y + r.width) := by
  simp only [overlapsDefect, List.any_eq_true]
  constructor
  · rintro ⟨d, hd, h⟩
    refine ⟨d, hd, ?_⟩
    simp only [intersect] at h
    split at h
    · assumption
    · cases h
  · rintro ⟨d, hd, h⟩
    refine ⟨d, hd, ?_⟩
    simp only [intersect]
    rw [if_pos h]; rfl

/-- A job is closed when its entry is CLOSED. -/
theorem jobClosed_iff (jobs j) : jobClosed jobs j = true ↔ ∃ e, findJob jobs j = some e ∧ e.state = .closed := by
  unfold jobClosed; cases findJob jobs j <;> simp

/-- R44: check 8. -/
theorem checkJobs_spec (jobs : List JobEntry) (cj : Nat) (leaves : List PlanLeaf) (names : Nat → Nat → Prop)
    (hnames : ∀ i j, names i j ↔ (i = 0 ∧ j = cj) ∨ ∃ f, (if i = 0 then none else leaves[i-1]?) = some f ∧ f.kind = .piece ∧ j = f.job) :
    let closed (i : Nat) : Prop := ∃ j e, names i j ∧ findJob jobs j = some e ∧ e.state = .closed
    let room : Nat := (64 - jobs.length) + (jobs.filter fun e => decide (e.state = .closed)).length
    (∀ i, (closed i ∧ ∀ j, j < i → ¬ closed j) → checkJobs jobs cj leaves = some (.jobClosed, i))
    ∧ ((∀ i, ¬ closed i) → ∀ unknown : List Nat, unknown.Nodup →
          (∀ j, j ∈ unknown ↔ (∃ i, names i j) ∧ findJob jobs j = none) →
          (room < unknown.length → checkJobs jobs cj leaves = some (.full, 0))
          ∧ (unknown.length ≤ room → checkJobs jobs cj leaves = none)) := by
  intro closed room
  have hmem : ∀ x : Nat × Nat, x ∈ (cj, 0) :: pieceJobs leaves ↔ names x.2 x.1 := by
    intro x
    rw [List.mem_cons, mem_pieceJobs, hnames]
    constructor
    · rintro (rfl | h)
      · exact .inl ⟨rfl, rfl⟩
      · exact .inr h
    · rintro (⟨h1, h2⟩ | h)
      · exact .inl (Prod.ext h2 h1)
      · exact .inr h
  constructor
  · rintro i ⟨⟨j, e, hn, hf, he⟩, hmin⟩
    have : ((cj, 0) :: pieceJobs leaves).find? (fun j => jobClosed jobs j.1) = some (j, i) := by
      apply find_of_least _ (pieceJobs_sorted leaves cj) _ (j, i) ((hmem (j,i)).2 hn) ((jobClosed_iff _ _).2 ⟨e, hf, he⟩)
      intro y hy hlt
      by_contra hc
      obtain ⟨e', h1, h2⟩ := (jobClosed_iff _ _).1 (by simpa using hc)
      exact hmin y.2 hlt ⟨y.1, e', (hmem y).1 hy, h1, h2⟩
    simp only [checkJobs, this]
  · intro hno unknown hnd hun
    have : ((cj, 0) :: pieceJobs leaves).find? (fun j => jobClosed jobs j.1) = none := by
      rw [List.find?_eq_none]
      intro y hy hc
      obtain ⟨e', h1, h2⟩ := (jobClosed_iff _ _).1 (by simpa using hc)
      exact hno y.2 ⟨y.1, e', (hmem y).1 hy, h1, h2⟩
    simp only [checkJobs, this]
    have hl : ((distinct (((cj, 0) :: pieceJobs leaves).map (·.1))).filter fun j => (findJob jobs j).isNone).length = unknown.length := by
      apply List.Perm.length_eq
      rw [List.perm_ext_iff_of_nodup ((nodup_distinct _).filter _) hnd]
      intro j
      rw [List.mem_filter, mem_distinct, hun, List.mem_map]
      constructor
      · rintro ⟨⟨x, hx, rfl⟩, h⟩
        exact ⟨⟨x.2, (hmem x).1 hx⟩, by simpa using h⟩
      · rintro ⟨⟨i, hi⟩, h⟩
        exact ⟨⟨(j, i), (hmem (j,i)).2 hi, rfl⟩, by simpa using h⟩
    rw [hl]
    refine ⟨fun h => if_pos h, fun h => if_neg ?_⟩
    show ¬ room < _
    omega

/-- A leaf after demotion, in its place. -/
theorem demotedLeaves_get (cfg kerf slab g) (i : Nat) : (demotedLeaves cfg kerf slab g)[i]? = (g.leaves[i]?).map (demote cfg.minLength cfg.minWidth (buildRegions kerf 1 g.steps [regionOne slab cfg.trim])) := by
  simp [demotedLeaves]

/-- A CLOSED entry. -/
abbrev shutJob (x : JobEntry) : Bool := decide (x.state = .closed)

/-- The distinct jobs of a list without an entry. -/
def unknownJobs (jobs : List JobEntry) (js : List Nat) := (distinct js).filter fun j => (findJob jobs j).isNone

/-- A new entry is found behind those before it. -/
theorem findJob_snoc (jobs : List JobEntry) (e : JobEntry) (j : Nat) :
    findJob (jobs ++ [e]) j = (findJob jobs j).or (if e.job = j then some e else none) := by
  simp [findJob, List.find?_append, List.find?_cons]
  by_cases h : e.job = j <;> simp [h]

/-- An entry that is not CLOSED outlives an eviction. -/
theorem findJob_eraseP (jobs : List JobEntry) (j : Nat) (hj : ∀ e, findJob jobs j = some e → e.state ≠ .closed) (e) (h : findJob jobs j = some e) :
    findJob (jobs.eraseP shutJob) j = some e := by
  induction jobs with
  | nil => cases h
  | cons x xs ih =>
    simp only [findJob, List.find?_cons] at h hj ⊢
    by_cases hx : x.job = j
    · simp [hx] at h hj
      subst h
      rw [List.eraseP_cons]
      simp [shutJob, hj, hx]
    · simp [hx] at h hj
      rw [List.eraseP_cons]
      by_cases hs : x.state = .closed
      · simp [shutJob, hs]; exact h
      · simp [shutJob, hs, hx]; exact ih hj h

/-- An eviction makes no job known. -/
theorem findJob_eraseP_none (jobs : List JobEntry) (j : Nat) (h : findJob jobs j = none) : findJob (jobs.eraseP shutJob) j = none := by
  simp only [findJob, List.find?_eq_none] at h ⊢
  intro x hx
  exact h x (List.mem_of_mem_eraseP hx)

/-- An eviction takes one CLOSED entry. -/
theorem length_filter_eraseP (jobs : List JobEntry) (h : jobs.any shutJob = true) : ((jobs.eraseP shutJob).filter shutJob).length + 1 = (jobs.filter shutJob).length := by
  induction jobs with
  | nil => simp at h
  | cons x xs ih =>
    rw [List.eraseP_cons]
    by_cases hs : x.state = .closed
    · simp [shutJob, hs]
    · simp [shutJob, hs] at h ⊢
      have := ih (by simpa [shutJob] using h)
      simpa [shutJob] using this

/-- R143: with room, a job is created, and the room is one less. -/
theorem createIn_of_room (jobs : List JobEntry) (e : JobEntry) (h : jobRoom jobs ≠ 0) (he : e.state = .opened) :
    ∃ js, createIn jobs e = some js ∧ jobRoom js + 1 = jobRoom jobs
      ∧ ∀ j, (∀ x, findJob jobs j = some x → x.state ≠ .closed) →
        findJob js j = (findJob jobs j).or (if e.job = j then some e else none) := by
  unfold createIn
  by_cases hl : jobs.length < jobMax
  · rw [if_pos hl]
    refine ⟨_, rfl, ?_, fun j hj => findJob_snoc jobs e j⟩
    simp only [jobRoom, List.length_append, List.filter_append]
    simp [he]; unfold jobMax at *; omega
  · rw [if_neg hl]
    have ha : jobs.any shutJob = true := by
      by_contra hc
      apply h
      simp only [jobRoom]
      have : jobs.filter (fun e => decide (e.state = .closed)) = [] := by
        rw [List.filter_eq_nil_iff]; intro a ha hs; exact hc (List.any_eq_true.2 ⟨a, ha, hs⟩)
      rw [this]; simp; omega
    rw [if_pos ha]
    refine ⟨_, rfl, ?_, fun j hj => ?_⟩
    · have := length_filter_eraseP jobs ha
      obtain ⟨x, hx, hs⟩ := List.any_eq_true.1 ha
      have hle := List.length_eraseP_of_mem hx hs
      have hpos : 0 < jobs.length := List.length_pos_of_mem hx
      simp only [jobRoom, List.length_append, List.filter_append]
      have e : (jobs.eraseP fun x => decide (x.state = .closed)) = jobs.eraseP shutJob := rfl
      rw [e, hle]
      have e2 : (jobs.filter fun x => decide (x.state = .closed)) = jobs.filter shutJob := rfl
      rw [e2]
      have e3 : ((jobs.eraseP shutJob).filter fun x => decide (x.state = .closed)) = (jobs.eraseP shutJob).filter shutJob := rfl
      rw [e3]
      simp [he]; unfold jobMax at *; omega
    · rw [findJob_snoc]
      cases hf : findJob jobs j with
      | none => rw [findJob_eraseP_none jobs j hf]
      | some x => rw [findJob_eraseP jobs j hj x hf]

/-- The unknown jobs of a longer list. -/
theorem unknownJobs_cons (jobs : List JobEntry) (j js) : (unknownJobs jobs (j :: js)).length = (if findJob jobs j = none then 1 else 0) + ((distinct js).filter fun m => (findJob jobs m).isNone && !decide (m = j)).length := by
  unfold unknownJobs
  simp only [distinct, List.filter_cons]
  rw [List.filter_filter]
  cases h : findJob jobs j <;> simp; omega

/-- R45: with room for its unknown jobs, every job of a plan has an OPEN entry once they are created. -/
theorem ensureJobs_opens (js : List Nat) : ∀ (s : State), (∀ j ∈ js, ∀ x, s.jobEntry j = some x → x.state = .opened) →
    (unknownJobs s.cost.jobs js).length ≤ jobRoom s.cost.jobs →
    (∀ j ∈ js, ∃ e, (js.foldl (fun s j => ensureJob j s) s).jobEntry j = some e ∧ e.state = .opened)
    ∧ (∀ j x, s.jobEntry j = some x → x.state = .opened → (js.foldl (fun s j => ensureJob j s) s).jobEntry j = some x) := by
  induction js with
  | nil => intro s _ _; exact ⟨by simp, fun j x h _ => h⟩
  | cons j js ih =>
    intro s ho hr
    rw [List.foldl_cons]
    rw [unknownJobs_cons] at hr
    cases hj : s.jobEntry j with
    | some x =>
      have e : ensureJob j s = s := by unfold ensureJob; rw [hj]
      rw [e]
      have hlen : (unknownJobs s.cost.jobs js).length ≤ jobRoom s.cost.jobs := by
        refine Nat.le_trans ?_ hr
        have hj' : findJob s.cost.jobs j = some x := hj
        rw [hj']; simp
        apply List.Sublist.length_le
        unfold unknownJobs
        rw [show (fun m => (findJob s.cost.jobs m).isNone) = (fun m => (findJob s.cost.jobs m).isNone && !decide (m = j)) from ?_]
        funext m
        by_cases hm : m = j
        · subst hm; rw [hj']; rfl
        · simp [hm]
      have := ih s (fun j' h => ho j' (by simp [h])) hlen
      refine ⟨?_, this.2⟩
      intro j' hj'
      rcases List.mem_cons.1 hj' with rfl | hj'
      · exact ⟨x, this.2 _ x hj (ho _ (by simp) x hj), ho _ (by simp) x hj⟩
      · exact this.1 j' hj'
    | none =>
      have hj' : findJob s.cost.jobs j = none := hj
      rw [hj'] at hr; simp at hr
      obtain ⟨njs, h1, h2, h3⟩ := createIn_of_room s.cost.jobs (newJob j .opened s.now) (by omega) rfl
      have e : ensureJob j s = { s with cost := { s.cost with jobs := njs } } := by
        unfold ensureJob; rw [hj]; simp only [createJob, h1]
      rw [e]
      have h3o : ∀ j' x, s.jobEntry j' = some x → x.state = .opened → findJob njs j' = some x := by
        intro j' x hx hxo
        have hx' : findJob s.cost.jobs j' = some x := hx
        rw [h3 j' (by intro y hy; rw [hx'] at hy; cases hy; rw [hxo]; simp), hx']; rfl
      have h3n : findJob njs j = some (newJob j .opened s.now) := by
        rw [h3 j (by intro y hy; rw [hj'] at hy; cases hy), hj']; simp [newJob]
      have h3m : ∀ m, m ≠ j → (∀ x, findJob s.cost.jobs m = some x → x.state ≠ .closed) → findJob njs m = findJob s.cost.jobs m := by
        intro m hm hx
        rw [h3 m hx]; simp [newJob, Ne.symm hm]
      have := ih { s with cost := { s.cost with jobs := njs } } (by
        intro j' hm x hx
        by_cases he : j' = j
        · subst he
          have hx : findJob njs j' = some x := hx
          rw [h3n] at hx; cases hx; rfl
        · have hx : findJob njs j' = some x := hx
          rw [h3m j' he (fun y hy => by rw [ho j' (by simp [hm]) y hy]; simp)] at hx
          exact ho j' (by simp [hm]) x hx) (by
        show (unknownJobs njs js).length ≤ jobRoom njs
        have : (unknownJobs njs js) = (distinct js).filter (fun m => (findJob s.cost.jobs m).isNone && !decide (m = j)) := by
          unfold unknownJobs
          apply List.filter_congr
          intro m hm
          rw [mem_distinct] at hm
          by_cases he : m = j
          · subst he; rw [h3n]; simp
          · rw [h3m m he (fun y hy => by rw [ho m (by simp [hm]) y hy]; simp)]; simp [he]
        rw [this]; omega)
      refine ⟨?_, ?_⟩
      · intro j' hm
        rcases List.mem_cons.1 hm with rfl | hm
        · exact ⟨_, this.2 j' _ h3n rfl, rfl⟩
        · exact this.1 j' hm
      · intro j' x hx hxo
        exact this.2 j' x (h3o j' x hx hxo) hxo

end Sys2Proof.Machine
end

