-- ==== Sys2Proof/Laws/PortStream.lean ====
section
/-! SUPPORT. What the port's receiver makes of its bytes (R179): bytes discarded before a start mark, a frame taken at its
end, a frame cut short by a gap. -/

namespace Sys2Proof

open Machine

/-- Bytes before a start mark leave nothing received. -/
theorem portReceive_skipped (skipped rest : List PortByte) (h : ∀ b ∈ skipped, b.byte ≠ 0x5A#8) :
    portReceive [] (skipped ++ rest) = portReceive [] rest := by
  induction skipped with
  | nil => rfl
  | cons b bs ih =>
    obtain ⟨hb, hbs⟩ := List.forall_mem_cons.1 h
    simpa [portReceive, seekMark, hb] using ih hbs

/-- Bytes that do not bring a frame to its end are kept. -/
theorem portReceive_part (got more : List Byte) (rest : List PortByte) (hg : got ≠ [])
    (hm : ∀ n, got.length < n → n ≤ (got ++ more).length → frameEnds ((got ++ more).take n) = false) :
    portReceive got (ungapped more ++ rest) = portReceive (got ++ more) rest := by
  induction more generalizing got with
  | nil => simp [ungapped]
  | cons b bs ih =>
    have he : frameEnds (got ++ [b]) = false := by
      have := hm (got.length + 1) (by omega) (by simp)
      rwa [show got ++ b :: bs = got ++ [b] ++ bs by simp, List.take_left' (by simp)] at this
    have := ih (got ++ [b]) (by simp) (by
      intro n h1 h2
      have := hm n (by simp at h1; omega) (by simpa using h2)
      simpa using this)
    simpa [ungapped, portReceive, hg, he] using this

/-- A frame is taken at its last byte, whatever follows it. -/
theorem portEvents_frame (mark last : Byte) (between : List Byte) (rest : List PortByte) (h5 : mark = 0x5A#8)
    (hm : ∀ n, 1 < n → n ≤ (mark :: between).length → frameEnds ((mark :: between).take n) = false)
    (he : frameEnds (mark :: between ++ [last]) = true) :
    portEvents (ungapped (mark :: between ++ [last]) ++ rest)
      = frameEvent (mark :: between ++ [last]) :: portEvents rest := by
  have := portReceive_part [mark] between (⟨false, last⟩ :: rest) (by simp) (by simpa using hm)
  subst h5
  simp [portEvents, ungapped, portReceive, seekMark] at this he ⊢
  rw [this, if_pos he]

/-- A gap drops the frame it falls in, and the byte behind it is looked at for a start mark. -/
theorem portEvents_gap (mark : Byte) (more : List Byte) (b : Byte) (rest : List PortByte) (h5 : mark = 0x5A#8)
    (hm : ∀ n, 1 < n → n ≤ (mark :: more).length → frameEnds ((mark :: more).take n) = false) :
    portEvents (ungapped (mark :: more) ++ ⟨true, b⟩ :: rest)
      = .commandFrameDropped (mark :: more) true :: portEvents (⟨true, b⟩ :: rest) := by
  have := portReceive_part [mark] more (⟨true, b⟩ :: rest) (by simp) (by simpa using hm)
  subst h5
  simp [portEvents, ungapped, portReceive, seekMark] at this ⊢
  rw [this]

/-- The length field is that of the first three bytes. -/
theorem rd16_take (l : List Byte) (n : Nat) (h : 3 ≤ n) : rd16 (l.take n) 1 = rd16 l 1 := by
  match n, h with
  | n + 3, _ =>
    match l with
    | [] => rfl
    | [a] => rfl
    | [a, b] => rfl
    | a :: b :: c :: l => rfl

/-- No part of a frame of an allowed length ends it. -/
theorem frameEnds_take (l : List Byte) (n : Nat) (h : n < 3 ∨ (rd16 l 1 ≤ 1024 ∧ n < 6 + rd16 l 1)) :
    frameEnds (l.take n) = false := by
  simp only [frameEnds, List.length_take, Bool.and_eq_false_imp, decide_eq_true_eq, Bool.or_eq_false_iff,
    decide_eq_false_iff_not]
  intro h3
  rcases h with h | ⟨h1, h2⟩
  · omega
  · rw [rd16_take l n (by omega)]; omega

end Sys2Proof
end

