-- ==== Sys2Proof/Laws/Resolution.lean ====
section
/-! SUPPORT. What the resolution of a plan gives (R50 to R53): the outcomes of its leaves and of its standing regions, and
the remnants that take an id, for a region table in ascending order. -/

namespace Sys2Proof.Machine

/-- Regions in ascending order have distinct numbers. -/
theorem numbers_nodup {rs : List Region} (h : rs.Pairwise fun a b => a.number < b.number) :
    (rs.map (·.number)).Nodup := by
  rw [List.nodup_iff_pairwise_ne, List.pairwise_map]
  exact h.imp fun hab => by omega

/-- The first of the chosen regions are those with fewest chosen below them. -/
theorem mem_take_numbers (l : List Region) (hn : l.Pairwise fun a b => a.number < b.number) (q : Region → Bool) (k : Nat)
    (r : Region) (hr : r ∈ l) (hq : q r = true) :
    r.number ∈ (((l.filter q).map (·.number)).take k) ↔ (l.filter (fun r' => q r' && decide (r'.number < r.number))).length < k := by
  induction l generalizing k with
  | nil => cases hr
  | cons x xs ih =>
    rw [List.pairwise_cons] at hn
    by_cases hx : q x = true
    · rcases List.mem_cons.1 hr with rfl | hm
      · have : (xs.filter (fun r' => q r' && decide (r'.number < r.number))) = [] := by
          rw [List.filter_eq_nil_iff]; intro a ha; have := hn.1 a ha; simp; omega
        simp [hx, this]
        cases k with
        | zero => simp
        | succ k => simp
      · have hlt := hn.1 r hm
        cases k with
        | zero => simp
        | succ k =>
          simp only [List.filter_cons, hx, if_true, List.map_cons, List.take_succ_cons, List.mem_cons, hlt, decide_true, Bool.and_self, List.length_cons]
          rw [ih hn.2 k hm]
          constructor
          · rintro (h | h) <;> omega
          · intro h; right; omega
    · rcases List.mem_cons.1 hr with rfl | hm
      · exact absurd hq hx
      · simp only [List.filter_cons, hx, Bool.false_and]
        exact ih hn.2 k hm

/-- R50, R52: the outcomes of the leaves whose regions are LEAF. -/
theorem mem_leafOutcomes (p : Plan) (h : p.regions.Pairwise fun a b => a.number < b.number) (o : Outcome) :
    o ∈ leafOutcomes p ↔ ∃ (i : Nat) (f : PlanLeaf), p.leaves[i]? = some f ∧ ∃ r ∈ p.regions, r.number = f.region
      ∧ r.status = .leaf ∧ o = { kind := leafOutcomeKind f, region := r.number, leaf := some (i + 1)
                                 area := regionArea r, amount := 0 } := by
  simp only [leafOutcomes, List.mem_filterMap]
  constructor
  · rintro ⟨⟨f, n⟩, hm, ho⟩
    obtain ⟨h1, h2, h3⟩ := List.mem_zipIdx hm
    split at ho
    · next r hr =>
      obtain ⟨hr1, hr2⟩ := (findRegion_iff (numbers_nodup h) _ _).1 hr
      split at ho
      · next hl =>
        refine ⟨n - 1, f, by rw [List.getElem?_eq_getElem (by omega), h3], r, hr1, hr2, hl, ?_⟩
        rw [show n - 1 + 1 = n by omega]
        exact (Option.some.inj ho).symm
      · cases ho
    · cases ho
  · rintro ⟨i, f, hf, r, hr, hn, hl, rfl⟩
    refine ⟨(f, i + 1), ?_, ?_⟩
    · obtain ⟨hlt, rfl⟩ := List.getElem?_eq_some_iff.1 hf
      rw [List.mem_iff_getElem]
      refine ⟨i, by simpa using hlt, ?_⟩
      rw [List.getElem_zipIdx]; congr 1; omega
    · simp only [(findRegion_iff (numbers_nodup h) f.region r).2 ⟨hr, hn⟩, hl, if_true]

/-- R53: the region of a remnant takes an id when fewer remnants than ids stand below it. -/
theorem mem_keptRegions (s : State) (p : Plan) (h : p.regions.Pairwise fun a b => a.number < b.number)
    (wants : Region → Bool)
    (hw : ∀ r ∈ p.regions, ((resolve p).any fun o => isRemnant o && decide (o.region = r.number)) = wants r)
    (r : Region) (hr : r ∈ p.regions) (hwr : wants r = true) :
    r.number ∈ keptRegions s p ↔ (p.regions.filter fun r' => wants r' && decide (r'.number < r.number)).length
      < 65536 - s.stock.seqNext := by
  have e : remnantRegions p (resolve p) = (p.regions.filter wants).map (·.number) := by
    unfold remnantRegions
    rw [List.filter_map]
    congr 1
    exact List.filter_congr fun x hx => hw x hx
  unfold keptRegions
  rw [e, mem_take_numbers p.regions h wants _ r hr hwr]

end Sys2Proof.Machine
end

