-- ==== Sys2Proof/Laws/Steps.lean ====
section
/-! SUPPORT. What the operations on a step of a plan do (R46, R59, R62): what remains of it, its grant, a charged segment,
its end. -/

namespace Sys2Proof.Machine

/-- A list changed at a place where it has an element. -/
theorem modify_of_some {α : Type} (l : List α) (k : Nat) (f : α → α) (a : α) (h : l[k]? = some a) :
    l.modify k f = l.set k (f a) := by
  obtain ⟨hk, ha⟩ := List.getElem?_eq_some_iff.1 h
  refine List.ext_getElem (by simp) fun i h1 h2 => ?_
  by_cases hi : k = i
  · subst hi; simp [ha]
  · simp [hi]

variable {p : Plan} {k : Nat} {st : PlanStep} (h : p.steps[k]? = some st)
include h

/-- Step k+1 of a plan. -/
theorem stepAt_succ : stepAt p (k + 1) = some st := by simpa [stepAt] using h

/-- R59: what remains of a step. -/
theorem stepRemaining_succ : stepRemaining p (k + 1) =
    (match p.regions.find? fun r => decide (r.number = st.region) with
      | some r => (match st.axis with | .x => r.width | .y => r.length)
      | none => 0) - st.doneLength := by
  simp only [stepRemaining, stepCutLength, stepDone, stepAt_succ h, findRegion]
  cases p.regions.find? fun r => decide (r.number = st.region) with
  | none => rfl
  | some r => cases ha : st.axis <;> rfl

/-- R46: a step is granted. -/
theorem grantStep_succ : grantStep (k + 1) p = { p with
    steps := p.steps.set k { st with status := .inProgress }
    regions := p.regions.map fun r => if r.number = st.region then { r with status := .inCut } else r } := by
  simp [grantStep, stepAt_succ h, setRegion, mapStep, modify_of_some _ _ _ _ h]

/-- R62, R69: a charged segment. -/
theorem recordSegment_succ (f : SegmentFigures) : recordSegment (k + 1) f p = { p with
    steps := p.steps.set k { st with doneLength := st.doneLength + f.length }
    sums := ⟨p.sums.time + f.time, p.sums.water + f.water, p.sums.wear + f.wear, p.sums.volume + f.volume,
      p.sums.length + f.length⟩
    segments := p.segments + 1 } := by
  simp [recordSegment, mapStep, modify_of_some _ _ _ _ h]

/-- R46, R63: a step ends. -/
theorem finishStep_succ : finishStep (k + 1) p = { p with
    steps := p.steps.set k { st with status := .done }
    regions := p.regions.map fun r =>
      if r.createdBy = k + 1 then { r with status := if r.cutBy = none then .leaf else .whole }
      else if r.number = st.region then { r with status := .divided } else r } := by
  simp only [finishStep, stepAt_succ h, setRegion, mapStep, Nat.add_one_ne_zero, if_false, Nat.add_sub_cancel,
    modify_of_some _ _ _ _ h, List.map_map]
  congr 1
  refine List.map_congr_left fun r _ => ?_
  obtain ⟨number, x, y, length, width, parent, createdBy, cutBy, leaf, status⟩ := r
  simp only [Function.comp, bringRegion]
  cases cutBy <;> by_cases h1 : number = st.region <;> by_cases h2 : createdBy = k + 1 <;> simp [h1, h2]

end Sys2Proof.Machine
end

