-- ==== Sys2Proof/Tests/Slice0.lean ====
section
/-! SUPPORT. Tests. The expected figures of the tests are those of the spec's worked sequences and cases, or worked
by hand from its rules, as each comment says. The witnesses give, for each obligation with hypotheses, states and
operands that meet them. -/

set_option Elab.async false

namespace Sys2Proof.Tests

open Sys2Proof.Machine

/-! ### The saw of the worked sequences -/

/-- Cutting, section 3.8: blade type 2; its other fields are any values of R72. -/
def blade : BladeType :=
  { f0 := 1200, q := 60, qmin := 50, kerf := 35, wear1 := 300, wear2 := 430, wear3 := 620, wear4 := 800
    newHeight := 1200, wornLimit := 100, price := 25 }

/-- Station 9, with the figures of sections 2.8, 3.8 and 6.10. -/
def config (role : Role) : ConfigRecord :=
  { station := 9, role := role, blades := List.replicate 8 blade, grid := 5, trim := 100, minLength := 3000
    minWidth := 1500, claimWindow := 120, drawCeiling := 255, fallback := 60, maxCapacity := 400
    stopMark := 50, resumeMark := 150, lowMark := 300, highMark := 700, allowance := 100, changeStep := 10
    feedFloor := 60, machineRate := 9000, recycledPrice := 150, freshPrice := 420, logThreshold := 96
    unknownMode := .report, primeTime := 5, epoch := 17 }

/-- Slab 2/17/85 of section 2.8. -/
def slabA : SlabRecord :=
  { id := ⟨2, 17, 85⟩, parent := none, cls := 2, thickness := 30, length := 30000, width := 18000, edge := .cut
    defects := [⟨20000, 14000, 3000, 500⟩, ⟨10000, 17000, 4000, 600⟩], value := 120000, state := .loaded
    holder := some 9, job := some 500, priority := some 3, place := 9, version := 4, scored := false }

/-- Slab 2/17/40 of section 1.13. -/
def slabB : SlabRecord :=
  { slabA with id := ⟨2, 17, 40⟩, state := .free, holder := none, job := none, priority := none, place := 0
               version := 6 }

/-- Slab 2/17/40 claimed by saw 4 after event 2 of section 1.13. -/
def slabB4 : SlabRecord :=
  { slabB with state := .claimed, holder := some 4, job := some 501, priority := some 2, version := 7 }

/-- The same claimed by this station. -/
def slabB9 : SlabRecord := { slabB4 with holder := some 9 }

/-- An entry of the job table. -/
def job (n : Nat) (st : JobState) : JobEntry := newJob n st 0

/-- A station 9 in RUNNING. -/
def station (role : Role) : State :=
  { State.reset with
    boot := { Boot.reset [] with
      runState := .running, phase := .none, config := some (config role), epoch := 17, advanced := some 17 }
    water := { Water.reset 9 with
      capacity := 150, fresh := 20, plantHeard := some 350, refresh := some 100, ownRequest := 60
      draws := [⟨4, 60, 60, false, some 350⟩, ⟨9, 60, 45, false, none⟩] }
    cost := { Costing.reset with jobs := [job 501 .opened, job 502 .opened] } }

/-- The station of a saw whose cut state is `c`, with the blade record of section 3.8 and slab 2/17/85. -/
def saw (c : CutState) : State :=
  let s := station .saw
  { s with
    stock := { s.stock with table := [⟨slabA, none⟩, ⟨slabB, none⟩] }
    cut := { s.cut with
      state := c, held := some slabA.id, blade := ⟨2, 7, 850, 6200000, false⟩ } }

/-- The staging of section 2.8.1, with the offset of step 2 as given. -/
def staged (offset : Nat) : Staging :=
  { header := ⟨slabA.id, 500, 3, 4⟩
    steps := [⟨1, .y, 6350⟩, ⟨3, .y, offset⟩, ⟨5, .x, 12000⟩]
    leaves := [⟨2, .piece, 501, 1⟩, ⟨4, .piece, 502, 1⟩, ⟨6, .remnant, 0, 0⟩, ⟨7, .waste, 0, 0⟩] }

/-- The plan of section 2.8.2. -/
def plan : Plan := formPlan (config .saw) 35 slabA (staged 5000)

/-- The plan with its first step granted. -/
def plan1 : Plan := grantStep 1 plan

/-- The plan with its first step done. -/
def plan2 : Plan := finishStep 1 plan1

/-- The segment of section 3.8, event 2. -/
def segment : Segment := { step := 1, doneBefore := 0, grant := 45, fresh := 20, seating := false, feed := 510 }

/-- Section 3.8, PLANNED. -/
def planned : State := { saw .planned with plan := ⟨none, some plan⟩ }

/-- Section 3.8, CUTTING with the first segment open. -/
def cutting : State :=
  let s := saw .cutting
  { s with plan := ⟨none, some plan1⟩, cut := { s.cut with segment := some segment } }

/-- SUSPENDED in the first step. -/
def suspended : State := { saw .suspended with plan := ⟨none, some plan1⟩ }

/-- STAGING with the plan of section 2.8.1. -/
def staging (offset : Nat) : State := { saw .staging with plan := ⟨some (staged offset), none⟩ }

/-- SPLITTING with the plan still held. -/
def splitting : State := { saw .splitting with plan := ⟨none, some plan2⟩ }

/-- A saw with no slab and slab 2/17/40 as `r` in its view. -/
def seeing (r : SlabRecord) : State :=
  let s := station .saw
  { s with stock := { s.stock with table := [⟨r, none⟩] } }

/-- A saw CLAIMED on slab 2/17/40. -/
def claiming : State :=
  let s := seeing slabB9
  { s with
    stock := { s.stock with window := some 1190 }, cut := { s.cut with state := .claimed, held := some slabB.id } }

/-- A queue entry as an owner makes it. -/
def queued (n : Notice) : QEntry := entry n none

/-- A state with these entries queued, the line unit in an access state. -/
def onLine (a : Access) (es : List QEntry) (s : State) : State :=
  { s with line := { s.line with queue := es, access := a } }

/-- A water stop. -/
def stopped (s : State) : State := { s with water := { s.water with stop := true } }

/-- Listen-only. -/
def silenced (s : State) : State :=
  { s with boot := { s.boot with listenOnly := true, runState := .listenOnly } }

/-- A run state. -/
def inState (r : RunState) (s : State) : State := { s with boot := { s.boot with runState := r } }

/-- Nothing requested, granted or held, so that the station holds nothing. -/
def idle (role : Role) : State :=
  let s := station role
  { s with water := { s.water with ownRequest := 0, draws := [DrawEntry.own 9] } }

/-- PLANNED, priming. -/
def priming (s : State) : State := { s with cut := { s.cut with priming := some 0 } }

/-- An own DRAW waits. -/
def drawing (s : State) : State :=
  onLine .waitQuiet [{ queued (.draw 60 false 0) with purpose := some .refresh }] s

/-- The plant's timers running. -/
def reporting (s : State) : State :=
  { s with plant := { s.plant with reportTimer := some 0, announceTimer := some 0, stop := true } }

/-- In the line test. -/
def testing : State :=
  let s := inState .loopback (idle .saw)
  { s with port := { s.port with outstanding := some .lineTest } }

/-- A full stock table, each entry in one state. -/
def fullStock (st : SlabState) (s : State) : State :=
  { s with stock := { s.stock with
      table := (List.range 200).map fun i => ⟨{ slabB with id := ⟨2, 18, i + 1⟩, state := st }, none⟩ } }

/-- A job table of 64 entries in one state. -/
def fullJobs (st : JobState) (s : State) : State :=
  { s with cost := { s.cost with jobs := (List.range 64).map fun i => job (i + 1000) st } }

/-- A cost log record. -/
def logged (job : Nat) : LogRecord :=
  { kind := .slab, job := job, slabId := slabA.id, step := 0, time := 0, water := 0, wear := 0, slab := 1, volume := 0
    length := 0, shopTime := 0, disposition := .totals }

/-- A cost log of `n` records. -/
def logs (n : Nat) (s : State) : State := { s with cost := { s.cost with log := List.replicate n (logged 501) } }

/-- A job table. -/
def withJobs (jobs : List JobEntry) (s : State) : State := { s with cost := { s.cost with jobs := jobs } }

/-- The last reply or signal of an outcome. -/
def lastFrame (o : Host.Outcome State Fault Refusal) : Option PortFrame :=
  match o with
  | .next s => (s.port.out.map (·.frame)).getLast?
  | _ => none

/-- A part of the next state of an outcome. -/
def part {α : Type} (f : State → α) (o : Host.Outcome State Fault Refusal) : Option α :=
  match o with
  | .next s => some (f s)
  | _ => none

/-! ### Well-formedness: one ill-formed term for each check -/

theorem test_wf_byte : (Instr.stockList 256 0).wf = false := by decide
theorem test_wf_word : (Instr.queryJob 65536).wf = false := by decide
theorem test_wf_long : (Instr.bladeChange 0 4294967296 0).wf = false := by decide
theorem test_wf_slabId : (Instr.release ⟨2, 65536, 1⟩).wf = false := by decide
theorem test_wf_defect : (Instr.yardIn 1 20 2000 2000 [⟨65536, 0, 1, 1⟩] 0).wf = false := by decide
theorem test_wf_holderZero : (Instr.claimNotice 4 6 { slabB4 with holder := some 0 }).wf = false := by decide
theorem test_wf_parentZero : (Instr.yardInNotice 4 { slabB with parent := some ⟨0, 0, 0⟩ }).wf = false := by decide
theorem test_wf_priorityZero : (Instr.yardInNotice 4 { slabB with priority := some 0 }).wf = false := by decide
theorem test_wf_priorityOfHeld : (Instr.claimNotice 4 6 { slabB4 with priority := none }).wf = false := by decide
theorem test_wf_stateCode : (Instr.yardInNotice 4 { slabB with state := .undefined 3 }).wf = false := by decide
theorem test_wf_reasonCode : (Instr.freeNotice 4 (.undefined 2) 6 slabB).wf = false := by decide
theorem test_wf_noRecords : (Instr.stockStateNotice 4 1 1 []).wf = false := by decide
theorem test_wf_longFragment : (Instr.stockStateNotice 4 1 1 [slabA, slabA, slabA]).wf = false := by decide
theorem test_wf_sender : (Instr.restartNotice 31).wf = false := by decide
theorem test_wf_fragment : (Instr.splitNotice 4 2 1 6 [slabA]).wf = false := by decide
theorem test_wf_header : (Instr.planBegin ⟨slabA.id, 500, 256, 4⟩).wf = false := by decide
theorem test_wf_step : (Instr.planPart [⟨1, 256, 0⟩] []).wf = false := by decide
theorem test_wf_leaf : (Instr.planPart [] [⟨1, 4, 0, 0⟩]).wf = false := by decide
theorem test_wf_tally : (Instr.tallyNotice 4 ⟨501, 4294967296, 0, 0, 0, 0, 0, 0⟩).wf = false := by decide
theorem test_wf_address : (Instr.autoload (some 256)).wf = false := by decide
theorem test_wf_record : (Instr.configWrite [0#8]).wf = false := by decide
theorem test_wf_goodFrame : (Instr.frameDropped (encodeFrame 4 1 1 .restart)).wf = false := by decide +kernel
theorem test_wf_testFrame : (Instr.lineTestEnd ⟨List.replicate 24 0#8, false⟩).wf = false := by decide

/-! ### Frames: bytes written out from R160, R161, R175, R177, R178 and R185; the checks were worked apart -/

/-- R160, R161, R175: a RESTART of station 9. -/
theorem test_frame_restart :
    encodeFrame 9 1 1 .restart = [0xB4#8, 0x09#8, 0x10#8, 0x11#8, 0x00#8, 0x79#8, 0xCF#8] := by decide +kernel

/-- A DRAW of station 4: request 60, lock set, grant 45. -/
theorem test_frame_draw :
    lineEvent [0xB4#8, 0x04#8, 0x0A#8, 0x11#8, 0x03#8, 0x3C#8, 0x01#8, 0x2D#8, 0x30#8, 0xF6#8]
      = some (.drawNotice 4 60 true 45) := by decide +kernel

/-- The same with one bit of the check turned. -/
theorem test_frame_badCheck :
    frameFault [0xB4#8, 0x04#8, 0x0A#8, 0x11#8, 0x03#8, 0x3C#8, 0x01#8, 0x2D#8, 0x30#8, 0xF7#8] = some .check := by
  decide +kernel

/-- R178, R185: QUERY-JOB 501. -/
theorem test_frame_queryJob :
    portEvent [0x5A#8, 0x02#8, 0x00#8, 0x03#8, 0xF5#8, 0x01#8, 0xBA#8, 0x5B#8] = some (.queryJob 501) := by decide +kernel

/-- CLAIM of 2/17/40 for job 501 at priority 2. -/
theorem test_frame_claim :
    portEvent [0x5A#8, 0x08#8, 0x00#8, 0x20#8, 0x02#8, 0x11#8, 0x00#8, 0x28#8, 0x00#8, 0xF5#8, 0x01#8, 0x02#8,
      0x9C#8, 0xF4#8] = some (.claim ⟨2, 17, 40⟩ 501 2) := by decide +kernel

/-- PLAN-PART with step 1 and leaf 1 of section 2.8.1. -/
theorem test_frame_planPart :
    commandFrame (.planPart [⟨1, 2, 6350⟩] [⟨2, 1, 501, 1⟩])
      = some [0x5A#8, 0x0C#8, 0x00#8, 0x25#8, 0x01#8, 0x01#8, 0x01#8, 0x02#8, 0xCE#8, 0x18#8, 0x02#8, 0x01#8,
        0xF5#8, 0x01#8, 0x01#8, 0x00#8, 0x12#8, 0xEB#8] := by decide +kernel

/-- R177: the record of slab 2/17/85, byte by byte. -/
theorem test_encodeSlab :
    encodeSlab { slabA with defects := [⟨20000, 14000, 3000, 500⟩] }
      = [2#8, 17#8, 0#8, 85#8, 0#8, 0#8, 0#8, 0#8, 0#8, 0#8, 3#8, 1#8, 2#8, 30#8, 0x30#8, 0x75#8, 0x50#8, 0x46#8,
        9#8, 0xF4#8, 1#8, 3#8, 9#8, 4#8, 0#8, 0xC0#8, 0xD4#8, 1#8, 0#8, 1#8, 0x20#8, 0x4E#8, 0xB0#8, 0x36#8,
        0xB8#8, 0x0B#8, 0xF4#8, 1#8] := by decide +kernel

/-- The same with state code 9, as a YARD-IN: the record is taken as carried, whatever its state. -/
theorem test_frame_undefinedState :
    lineEvent [0xB4#8, 0x04#8, 0x01#8, 0x11#8, 0x22#8, 0x00#8, 0x00#8, 0x00#8, 0x01#8, 0x02#8, 0x11#8, 0x00#8, 0x28#8,
      0x00#8, 0x00#8, 0x00#8, 0x00#8, 0x00#8, 0x00#8, 0x09#8, 0x01#8, 0x02#8, 0x1E#8, 0x30#8, 0x75#8, 0x50#8, 0x46#8,
      0x00#8, 0x00#8, 0x00#8, 0x00#8, 0x00#8, 0x06#8, 0x00#8, 0xC0#8, 0xD4#8, 0x01#8, 0x00#8, 0x00#8, 0x0E#8, 0x5C#8]
      = some (.yardInNotice 4 { slabB with state := .undefined 9, defects := [] }) := by decide +kernel

/-- R177: a DRAW whose lock flag byte is 2: the bits above bit 0 are not read. -/
theorem test_frame_lockByte :
    lineEvent [0xB4#8, 0x04#8, 0x0A#8, 0x11#8, 0x03#8, 0x3C#8, 0x02#8, 0x2D#8, 0x26#8, 0xA2#8]
      = some (.drawNotice 4 60 false 45) := by decide +kernel

/-- R179: bytes before a start mark are discarded; without one there is no frame. -/
theorem test_frame_mark :
    portEvent [0x00#8, 0x07#8, 0x5A#8, 0x02#8, 0x00#8, 0x03#8, 0xF5#8, 0x01#8, 0xBA#8, 0x5B#8] = some (.queryJob 501)
    ∧ portEvent [0x00#8, 0x02#8, 0x00#8, 0x03#8] = none := by decide +kernel

/-- R179: a frame is taken at its last check byte whatever follows; behind a bad check, a gap or a length of 1025 the next
start mark is looked for. -/
theorem test_frame_stream :
    let good : List Byte := [0x5A#8, 0x02#8, 0x00#8, 0x03#8, 0xF5#8, 0x01#8, 0xBA#8, 0x5B#8]
    let bad : List Byte := [0x5A#8, 0x02#8, 0x00#8, 0x03#8, 0xF5#8, 0x01#8, 0xBA#8, 0x5C#8]
    portEvents (ungapped (good ++ [0x00#8] ++ bad ++ good))
      = [.queryJob 501, .commandFrameDropped bad false, .queryJob 501]
    ∧ portEvents (ungapped [0x5A#8, 0x02#8] ++ ⟨true, 0x5A#8⟩ :: ungapped good.tail)
      = [.commandFrameDropped [0x5A#8, 0x02#8] true, .queryJob 501]
    ∧ portEvents (ungapped ([0x5A#8, 0x01#8, 0x04#8] ++ good))
      = [.commandFrameDropped [0x5A#8, 0x01#8, 0x04#8] false, .queryJob 501] := by decide +kernel

/-- R159: a RESTART of station 9 (its check of section 9.10's layout), heard from a quiet interval on; one begun before it, a
wrong first byte, one cut short. -/
theorem test_line_stream :
    let good : List Byte := [0xB4#8, 0x09#8, 0x10#8, 0x11#8, 0x00#8, 0x79#8, 0xCF#8]
    lineReceive .untilQuiet (lineBytes good ++ .quiet :: lineBytes good ++ [.byte 0xB4#8, .quiet])
      = [.restartNotice 9]
    ∧ lineReceive (.taking []) (.byte 0x09#8 :: lineBytes good ++ .quiet :: lineBytes (good.take 6) ++ [.quiet])
      = [.frameDropped [0x09#8], .frameDropped (good.take 6)]
    ∧ (LineReceiver.taking (good.take 3)).midFrame = true := by decide +kernel

/-- R186: in CONFIG FAULT the configuration-dependent fields follow as zeros, as many as the full reply has beside those
given, the overrun mark and the outstanding command. -/
theorem test_status_configFault :
    (unconfiguredFields.length + 6 = (statusFields (fullStatus (station .console))).length)
    ∧ unconfiguredFields.all (fun f => match f with
      | .laid b => b.all (· = 0#8) | .number n => n = 0 | .name _ => false) = true := by decide +kernel

/-- R178, R189: the OK reply to CLAIM, and that to YARD-IN with id 9/17/1. -/
theorem test_frame_replies :
    frameBytes (.reply ⟨0xA0, .ok, .none⟩) = [0x5A#8, 0x01#8, 0x00#8, 0xA0#8, 0x00#8, 0xA6#8, 0x0D#8]
    ∧ frameBytes (.reply ⟨0xE0, .ok, .slabId ⟨9, 17, 1⟩⟩)
      = [0x5A#8, 0x06#8, 0x00#8, 0xE0#8, 0x00#8, 0x09#8, 0x11#8, 0x00#8, 0x01#8, 0x00#8, 0x9C#8, 0xFA#8] := by
  decide +kernel

/-- R178, R184: PREEMPTED of slab 2/17/40. -/
theorem test_frame_signal :
    frameBytes (.signal (.preempted ⟨2, 17, 40⟩))
      = [0x5A#8, 0x05#8, 0x00#8, 0xF1#8, 0x02#8, 0x11#8, 0x00#8, 0x28#8, 0x00#8, 0x20#8, 0xD0#8] := by decide +kernel

/-- The opcode table gives no row any bits. -/
theorem test_withFetchWord : State.reset.withFetchWord 16 1 = State.reset := by decide +kernel

/-! ### Arithmetic: the worked cases of sections 4.10 to 4.12, 5.6 to 5.8, 6.10 and 7.8 -/

theorem test_feed_worked : effectiveFeed blade 60 30 2 60 false = 680 ∧ effectiveFeed blade 60 30 2 45 false = 510 := by
  decide +kernel

theorem test_segment_worked :
    segmentFigures (config .saw) blade segment 6200000 30000 30 2
      = { length := 30000, duration := 3530, volume := 795, wholeWear := 39, remainder := 3200000
          time := 883, water := 16, wear := 975 } := by decide +kernel

/-- Section 4.11. -/
def newBlade : BladeType := { blade with f0 := 900, q := 40, qmin := 60, wear3 := 620, price := 30 }

theorem test_feed_seating :
    effectiveFeed newBlade 60 20 3 32 true = 252 ∧ effectiveFeed newBlade 60 20 3 32 false = 504
      ∧ minWetting newBlade = 24 := by decide +kernel

theorem test_segment_seating :
    segmentFigures (config .saw) newBlade ⟨1, 0, 32, 0, true, 252⟩ 0 18000 20 3
      = { length := 18000, duration := 4286, volume := 686, wholeWear := 22, remainder := 3200000
          time := 1072, water := 10, wear := 660 } := by decide +kernel

theorem test_feed_floor : effectiveFeed { blade with f0 := 200, q := 40 } 60 40 4 20 true = 60 := by decide +kernel

/-- An outcome before the split. -/
def outcome (k : OutcomeKind) (region area : Nat) : Outcome := ⟨k, region, none, area, 0⟩

/-- Section 5.6. -/
theorem test_split_completed :
    ((splitValue 120000 540000000 [outcome (.piece 501 1) 2 190500000, outcome (.piece 502 1) 4 150000000,
      outcome (.remnant false) 6 78960000, outcome .waste 7 118209700]).outcomes.map (·.amount))
      = [57321, 45133, 17546, 0] := by decide +kernel

/-- Section 5.7. -/
theorem test_split_aborted :
    ((splitValue 120000 540000000 [outcome (.piece 501 1) 2 190500000, outcome (.piece 502 1) 4 150000000,
      outcome (.remnant true) 5 197400000]).outcomes.map (·.amount)) = [42595, 33539, 43866] := by decide +kernel

/-- Section 5.8. -/
theorem test_split_noPieces :
    splitValue 250000 640000000 [outcome (.remnant false) 1 629640000]
      = ⟨[⟨.remnant false, 1, none, 629640000, 245953⟩], 4047⟩ := by decide +kernel

/-- Section 6.10, events 2 and 3. -/
theorem test_fit_worked :
    (fitTable 110 [⟨4, 60, 60, true, none⟩, ⟨9, 80, 80, false, none⟩, ⟨12, 50, 10, false, none⟩]).map (·.granted)
      = [60, 50, 0]
    ∧ (fitTable 70 [⟨4, 60, 60, true, none⟩, ⟨9, 80, 80, false, none⟩, ⟨12, 50, 10, false, none⟩]).map (·.granted)
      = [60, 10, 0] := by decide +kernel

/-- Section 7.8, reports 1 to 7. -/
theorem test_plant_worked :
    [(750, 100, 20), (680, 100, 20), (250, 90, 30), (48, 90, 30), (120, 90, 60), (155, 90, 60), (160, 90, 60)].map
        (fun r => (plantCapacity (config .plant) r.1 r.2.1 r.2.2, plantFresh r.2.1 r.2.2))
      = [(220, 17), (120, 17), (100, 25), (19, 25), (60, 40), (77, 40), (80, 40)] := by decide +kernel

/-- R2. -/
theorem test_versions :
    versionSucc 65535 = 1 ∧ newer 1 65535 = true ∧ newer 5 5 = false ∧ newer 32773 5 = false
      ∧ newer 32772 5 = true := by decide +kernel

/-! ### Two saws claim one slab (section 1.13) -/

/-- Event 1 at saw 9. -/
theorem test_claim_queued :
    part (fun t => t.line.queue.map (·.notice)) (exec (.claim slabB.id 502 5) (seeing slabB))
      = some [.claim 6 { slabB with
        state := .claimed, holder := some 9, job := some 502, priority := some 5, version := 7 }] := by
  decide +kernel

/-- Event 2 at saw 9: the orphan watch runs 180 s. -/
theorem test_claim_heard :
    part (fun t => t.stock.table) (exec (.claimNotice 4 6 slabB4) (seeing slabB))
      = some [⟨slabB4, some ⟨1800, 7⟩⟩] := by decide +kernel

/-- Event 3: re-versioned. -/
theorem test_claim_reversioned :
    part (fun t => t.line.queue.map (·.notice)) (exec (.quietWaitElapsed true) (onLine .waitQuiet [queued
        (.claim 6 { slabB with
          state := .claimed, holder := some 9, job := some 502, priority := some 5, version := 7 })]
        (seeing slabB4)))
      = some [.claim 7 { slabB with
        state := .claimed, holder := some 9, job := some 502, priority := some 5, version := 8 }] := by
  decide +kernel

/-- Event 4 at the saw that is outbid. -/
theorem test_claim_preempted :
    let o := exec (.claimNotice 4 7 { slabB with
      state := .claimed, holder := some 4, job := some 502, priority := some 5, version := 8 }) claiming
    lastFrame o = some (.signal (.preempted slabB.id))
      ∧ part (fun t => (t.cut.state, t.stock.window)) o = some (.empty, none) := by decide +kernel

/-- Event 4 at the sender: the claim window of 120 s. -/
theorem test_claim_won :
    part (fun t => (t.cut.state, t.cut.held, t.stock.window)) (exec .cleanEcho (onLine .sending [queued (.claim 7
        { slabB with state := .claimed, holder := some 9, job := some 502, priority := some 5, version := 8 })]
        (seeing slabB4))) = some (.claimed, some slabB.id, some 1200) := by decide +kernel

/-! ### A plan checked (section 2.8) -/

theorem test_plan_offGrid :
    lastFrame (exec .planEnd (staging 5002)) = some (.reply ⟨0xA6, .offGrid, .index 2⟩) := by decide +kernel

theorem test_plan_formed :
    lastFrame (exec .planEnd (staging 5000)) = some (.reply ⟨0xA6, .ok, .planFormed 0 2 1 1 35⟩) := by decide +kernel

theorem test_plan_regions :
    plan.regions.map (fun r => (r.number, r.x, r.y, r.length, r.width))
      = [(1, 0, 0, 30000, 18000), (2, 0, 0, 30000, 6350), (3, 0, 6385, 30000, 11615), (4, 0, 6385, 30000, 5000),
        (5, 0, 11420, 30000, 6580), (6, 0, 11420, 12000, 6580), (7, 12035, 11420, 17965, 6580)] := by
  decide +kernel

/-! ### A cut halted by a water stop (section 3.8) -/

/-- Event 1. -/
theorem test_cut_asked :
    part (fun t => t.line.queue.map (·.notice)) (exec .cutAsk planned) = some [.draw 60 true 45] := by decide +kernel

/-- Event 2. -/
theorem test_cut_granted :
    lastFrame (exec .cleanEcho (onLine .sending
        [{ entry (.draw 60 true 45) (some .cutAsk) with purpose := some .lock }] planned))
      = some (.reply ⟨0xA9, .ok, .cut ⟨1, .y, 0, 6350, 30000, 45, 510, 3530⟩⟩) := by decide +kernel

/-- Event 3. -/
theorem test_cut_stopSignalled :
    lastFrame (exec (.plantNotice 20 150 20 true false) cutting) = some (.signal (.halt 1 0)) := by decide +kernel

/-- Event 4. -/
theorem test_cut_halted :
    let o := exec (.cutHalted 12000) (stopped cutting)
    lastFrame o = some (.reply ⟨0xAA, .ok, .segment 12000 1412 318 16 759⟩)
      ∧ part (fun t => (t.cut.state, t.cut.blade.height, t.cut.blade.remainder, t.cut.waiting)) o
        = some (.suspended, 834, 1000000, true) := by decide +kernel

/-- Event 5. -/
theorem test_cut_waitStop :
    lastFrame (exec .cutAsk (stopped suspended)) = some (.reply ⟨0xA9, .waitStop, .none⟩) := by decide +kernel

/-- Event 6. -/
theorem test_cut_clear :
    lastFrame (exec (.plantNotice 20 150 40 false false)
        { stopped suspended with cut := { suspended.cut with waiting := true } })
      = some (.signal (.clearToCut 1)) := by decide +kernel

/-- Event 7. -/
theorem test_cut_resumed :
    lastFrame (exec .cutAsk { suspended with plan := ⟨none, some
        (recordSegment 1 ⟨12000, 1412, 318, 16, 1000000, 353, 6, 400⟩ plan1)⟩ })
      = some (.reply ⟨0xA9, .ok, .cut ⟨1, .y, 12000, 6350, 18000, 45, 510, 2118⟩⟩) := by decide +kernel

/-! ### The plan completed and aborted (sections 2.8, 5.6 and 5.7) -/

/-- Step 3 in progress, as if the steps before had each been cut in one segment. -/
def plan3 : Plan := grantStep 3 (finishStep 2 (grantStep 2 plan2))

/-- CUTTING in step 3. -/
def lastStep : State :=
  { cutting with
    plan := ⟨none, some plan3⟩
    cut := { cutting.cut with segment := some { segment with step := 3 } } }

/-- The child record of region 6: its value, and the part of defect B that lies on it. -/
theorem test_plan_completed :
    part (fun t => (t.cut.state, t.stock.seqNext, t.line.queue.map (·.notice) |>.getD 1 .restart))
        (exec (.cutDone 6580) lastStep)
      = some (.splitting, 2, .split 4 [{ slabA with
          state := .cut, holder := none, job := none, priority := none, version := 5 },
        { slabA with
          id := ⟨9, 17, 1⟩, parent := some slabA.id, length := 12000, width := 6580
          defects := [⟨10000, 5580, 2000, 600⟩], value := 17546, state := .free, holder := none, job := none
          priority := none, version := 1 }]) := by decide +kernel

theorem test_plan_aborted :
    let o := exec (.planAbort 4000) lastStep
    lastFrame o = some (.reply ⟨0xA8, .ok, .outcomeCounts 2 1 0⟩)
      ∧ part (fun t => t.plan.plan.bind (·.split) |>.map (fun w => w.outcomes.map (·.amount))) o
        = some (some [42595, 33539, 43866]) := by decide +kernel

/-! ### A job closed while its tally is on the line (section 8.7) -/

/-- Event 5. -/
theorem test_tally_late :
    part (fun t => t.cost.jobs.map fun e => (e.slab, e.pieces, e.late))
        (exec (.tallyNotice 4 ⟨501, 0, 0, 0, 57321, 0, 0, 1⟩)
          { station .console with cost := { Costing.reset with
            jobs := [{ job 501 .closed with slab := 80000, pieces := 2 }] } })
      = some [(80000, 2, 57321)] := by decide +kernel

/-- Event 7. -/
theorem test_log_read :
    part (fun t => (t.cost.log.length, t.cost.armed))
        (exec (.logRead 8) { station .saw with cost := { Costing.reset with
          log := List.replicate 97 (logged 501), armed := false } })
      = some (89, true) := by decide +kernel

/-! ### A tank that runs low (section 7.8) -/

/-- Report 4. -/
theorem test_report_stops :
    let s := station .plant
    lastFrame (exec (.plantReport 48 90 30) { s with plant := { s.plant with announced := some ⟨100, false, false⟩ } })
      = some (.reply ⟨0xC0, .ok, .plantReport 19 25 true true⟩) := by decide +kernel

/-- Report 7: no notice at once. -/
theorem test_report_quiet :
    let s := station .plant
    lastFrame (exec (.plantReport 160 90 60) { s with plant := { s.plant with announced := some ⟨77, false, false⟩ } })
      = some (.reply ⟨0xC0, .ok, .plantReport 80 40 false false⟩) := by decide +kernel

/-! ### Start-up and the ports -/

/-- A configuration record in its bytes (R193). -/
def recordHead : List Nat :=
  [0x3C, 9, 1]
    ++ (List.range 8).flatMap (fun _ => [0xB0, 4, 60, 50, 35, 0x2C, 1, 0xAE, 1, 0x6C, 2, 0x20, 3, 0xB0, 4, 100, 0, 25, 0])
    ++ [5, 100, 0, 0xB8, 0x0B, 0xDC, 5, 120, 0, 255, 60, 0, 0x90, 1, 50, 0, 150, 0, 0x2C, 1, 0xBC, 2, 100, 0, 10, 0,
      60, 0, 0x28, 0x23, 0, 0, 150, 0, 0, 0, 0xA4, 1, 0, 0, 96, 1, 5, 16, 0]
    ++ List.replicate 54 0

/-- The record with its sum. -/
def eeprom : List Byte :=
  (recordHead ++ [recordHead.sum % 256, recordHead.sum / 256]).map byte

theorem test_record_read : firstWrong eeprom = none ∧ decodeConfig eeprom = { config .saw with epoch := 16 } := by
  decide +kernel

/-- R193, R194: from power-on with this record the station advances its epoch to 17. -/
theorem test_autoload :
    part (fun t => t.boot.phase) (exec (.autoload none) { State.reset with boot := Boot.reset eeprom })
      = some (.writingEpoch { config .saw with epoch := 16 } 17) := by decide +kernel

/-- R193: a blank EEPROM has no format mark. -/
theorem test_autoload_blank :
    lastFrame (exec (.autoload none) State.reset) = some (.signal (.fault .configBad 0 0)) := by decide +kernel

/-- R194: RESTART, STOCK-ASK and the first DRAW. -/
theorem test_epoch_confirmed :
    part (fun t => (t.boot.runState, t.line.queue.map (·.notice)))
        (exec (.epochWriteBack (.confirmed false))
          { State.reset with boot := { Boot.reset eeprom with phase := .writingEpoch (config .saw) 17 } })
      = some (.running, [.restart, .stockAsk, .draw 60 false 0]) := by decide +kernel

/-- R159: a frame in progress as the station joins is discarded uncounted, the next is heard. -/
theorem test_joining_midFrame :
    let s : State := { State.reset with boot := { Boot.reset eeprom with phase := .writingEpoch (config .saw) 17 } }
    part (·.line.midFrame) (exec (.epochWriteBack (.confirmed true)) s) = some true
    ∧ part (fun t => (t.line.midFrame, t.line.receiveErrors))
      (exec (.frameDropped [0x09#8]) (joinLine true (station .saw))) = some (false, 0)
    ∧ part (·.line.receiveErrors) (exec (.frameDropped [0x09#8]) (joinLine false (station .saw))) = some 1 := by
  decide +kernel

/-- R180: a saw refuses a console's command. -/
theorem test_wrongRole :
    lastFrame (exec .waterOverride (station .saw)) = some (.reply ⟨0xE5, .wrongRole, .none⟩) := by decide +kernel

/-- The step takes the front command; READY needs room in the queue (R181). -/
theorem test_step_front :
    part (fun t => (t.pending, t.ready)) (step { station .saw with pending := [.faultRead, .status] })
      = some ([.status], true) := by decide +kernel

/-- R197: shop time returns to 0. -/
theorem test_tick_wraps :
    part (fun t => t.boot.shopTime)
      (step { station .saw with boot := { (station .saw).boot with shopTime := 4294967295 } }) = some 0 := by
  decide +kernel

/-- R174: the line test has ended when a tick has passed. -/
theorem test_lineTest_tick :
    part (fun t => (t.boot.runState, t.port.outstanding, t.port.out.length)) (step testing)
      = some (.running, none, 1) := by decide +kernel

/-- R158, R192: the high-water mark of a station configured anew is Armed until it enters service. -/
theorem test_configWrite_arms :
    part (fun t => t.cost.armed) (exec (.configWrite eeprom)
      { idle .saw with cost := { (idle .saw).cost with armed := false } }) = some true := by decide +kernel

/-! ### Witnesses: states and operands that meet the hypotheses of each obligation, clause by clause -/

/-- A state with `n` frames of one kind in the output list. -/
def withFrames (n : Nat) (f : PortFrame) (s : State) : State :=
  { s with port := { s.port with out := List.replicate n ⟨f, false, false⟩ } }

/-- A reply and two signals. -/
def aReply : PortFrame := .reply ⟨0x81, .ok, .none⟩
def aSignal : PortFrame := .signal (.clearToCut 1)
def aWater : PortFrame := .signal (.water 1 2 false 3 false false)

/-- A state with a command outstanding. -/
def busy (s : State) : State := { s with port := { s.port with outstanding := some .park } }

/-- A full queue. -/
def fullQueue (s : State) : State := onLine .waitQuiet (List.replicate 12 (queued .restart)) s

theorem witness_StepPassesTime :
    (station .saw).pending = [] ∧ dueExpiry (station .saw) = none ∧ (station .saw).joined = true
    ∧ dueExpiry { claiming with stock := { claiming.stock with window := some 0 } } = some .claimWindowExpiry
    ∧ (station .saw).boot.shopTime < 4294967295
    ∧ { (station .saw).boot with shopTime := 4294967294 }.shopTime < 4294967295
    ∧ { (station .saw).boot with shopTime := 4294967295 }.shopTime = 4294967295
    ∧ State.reset.inService = false ∧ State.reset.pending = []
    ∧ testing.pending = [] ∧ testing.boot.runState = .loopback
    ∧ testing.port.outstanding = some .lineTest ∧ (silenced testing).boot.listenOnly = true := by decide +kernel

/-- One expiry of each timer, due. -/
theorem witness_StepPassesTime_due :
    let s := station .saw
    dueExpiry { s with stock := { s.stock with table := [⟨slabB4, some ⟨0, 7⟩⟩] } } = some (.orphanWatchExpiry slabB.id)
    ∧ dueExpiry (priming planned) = some .primingEnd
    ∧ dueExpiry { s with water := { s.water with refresh := some 0 } } = some .refreshTimerExpiry
    ∧ dueExpiry { s with water := { s.water with draws := [⟨4, 60, 60, false, some 0⟩, ⟨9, 60, 45, false, none⟩] } }
      = some (.ageTimerExpiry 4)
    ∧ dueExpiry { s with water := { s.water with plantHeard := some 0 } } = some .plantHeardTimerExpiry
    ∧ dueExpiry (reporting (station .plant)) = some .reportTimerExpiry
    ∧ dueExpiry { station .plant with plant := { (station .plant).plant with announceTimer := some 0 } }
      = some .announceTimerExpiry := by decide +kernel

theorem witness_StepKeepsWaterView :
    (∃ t, step (station .saw) = .next t) ∧ WaterFits (station .saw) ∧ DrawsOrdered (station .saw) :=
  ⟨⟨_, rfl⟩, by unfold WaterFits DrawsOrdered; decide +kernel⟩

theorem witness_StepKeepsLineOrdered :
    (∃ t, step { fullQueue (station .saw) with pending := [.quietWaitElapsed true] } = .next t)
    ∧ LineOrdered { fullQueue (station .saw) with pending := [.quietWaitElapsed true] } :=
  ⟨⟨_, rfl⟩, by unfold LineOrdered; decide +kernel⟩

theorem witness_StepKeepsStockBounded :
    (∃ t, step (saw .loaded) = .next t) ∧ StockBounded (saw .loaded) :=
  ⟨⟨_, rfl⟩, by unfold StockBounded; decide +kernel⟩

theorem witness_StepKeepsCostBounded :
    (∃ t, step (station .saw) = .next t) ∧ CostBounded (station .saw) :=
  ⟨⟨_, rfl⟩, by unfold CostBounded; decide +kernel⟩

theorem witness_StepKeepsCutUnit :
    (∃ t, step { cutting with pending := [.cutHalted 12000] } = .next t)
    ∧ CutConsistent { cutting with pending := [.cutHalted 12000] } ∧ WearBounded cutting :=
  ⟨⟨_, rfl⟩, by unfold CutConsistent WearBounded; decide +kernel⟩

theorem witness_StepKeepsCountersBounded :
    (∃ t, step (station .saw) = .next t) ∧ CountersBounded (station .saw) :=
  ⟨⟨_, rfl⟩, by unfold CountersBounded; decide +kernel⟩

theorem witness_LineFrameRoundTrip :
    isStation 1 = true ∧ isStation 30 = true
    ∧ fragmentOk (kindCode (.claim 6 slabB4)) 1 1 = true ∧ (Notice.claim 6 slabB4).wf = true
    ∧ fragmentOk (kindCode (.split 4 [slabA, slabB])) 8 8 = true ∧ (Notice.split 4 [slabA, slabB]).wf = true
    ∧ (Notice.draw 255 true 0).wf = true ∧ (Notice.plant 65535 0 true false).wf = true
    ∧ 0x09#8 ≠ 0xB4#8 ∧ [0xB4#8].head? = some 0xB4#8 ∧ [0xB4#8].length < 5
    ∧ [0xB4#8, 0x09#8, 0x10#8, 0x11#8, 0x81#8].length = 5 ∧ 128 < rd8 [0xB4#8, 0x09#8, 0x10#8, 0x11#8, 0x81#8] 4
    ∧ rd8 [0xB4#8, 0x09#8, 0x10#8, 0x11#8, 0x00#8, 0x79#8, 0xCE#8] 4 ≤ 128
    ∧ frameFault [0xB4#8, 0x09#8, 0x10#8, 0x11#8, 0x00#8, 0x79#8, 0xCE#8] ≠ none := by decide +kernel

theorem witness_CommandRoundTrip :
    (Instr.claim ⟨255, 65535, 0⟩ 65535 255).wf = true
    ∧ (∃ c, encodeCommand (.claim ⟨255, 65535, 0⟩ 65535 255) = some c)
    ∧ (Instr.planPart [] []).wf = true ∧ ∃ c, encodeCommand (.planPart [] []) = some c :=
  ⟨by decide +kernel, ⟨_, rfl⟩, by decide +kernel, ⟨_, rfl⟩⟩

theorem witness_CommandRoundTrip_list :
    (withFrames 2 aSignal (station .saw)).port.out.length = 2
    ∧ ∀ e ∈ (withFrames 2 aSignal (station .saw)).port.out, e.held = false := by decide +kernel

theorem witness_OutputListRules :
    (withFrames 15 aSignal (station .saw)).port.out.length < 16
    ∧ (withFrames 16 aReply (station .saw)).port.out.any displaceable = false
    ∧ 16 ≤ (withFrames 16 aSignal (station .saw)).port.out.length
    ∧ (withFrames 16 aSignal (station .saw)).port.out.any displaceable = true
    ∧ ((withFrames 16 aWater (station .saw)).port.out.filter fun e => !isWater e.frame).length < 16
    ∧ isWater aWater = true ∧ isWater aSignal = false
    ∧ aReply ∈ (withFrames 16 aReply (station .saw)).port.out.map (·.frame) := by decide +kernel

theorem witness_OutputFrameSent :
    let sending (out : List OutEntry) : State :=
      { station .saw with port := { Port.reset with txBusy := true, out := out } }
    let begun : OutEntry := ⟨aReply, true, false⟩
    let back : OutEntry := ⟨aReply, false, true⟩
    let next : OutEntry := ⟨aWater, false, false⟩
    (sending [begun]).port.txBusy = true ∧ (sending [begun]).port.out = [] ++ begun :: [] ∧ begun.begun = true
    ∧ (sending [back, begun, back]).port.out = [back] ++ begun :: [back]
    ∧ (∀ x ∈ [back], x.begun = false) ∧ (∀ x ∈ [back] ++ [back], x.held = true)
    ∧ (sending [back, begun, next]).port.out = [back] ++ begun :: [next]
    ∧ [back] ++ [next] = [back] ++ next :: [] ∧ (∀ h ∈ [back], h.held = true) ∧ next.held = false := by decide +kernel

theorem witness_DroppedFrameCounts :
    portFrameBad [0x5A#8, 0x02#8, 0x00#8, 0x03#8, 0xF5#8, 0x01#8, 0xBA#8, 0x5C#8] = true
    ∧ (∀ b ∈ [0x00#8, 0xFF#8], b ≠ 0x5A#8) ∧ ([0x5A#8, 0x01#8, 0x04#8] : List Byte).head? = some 0x5A#8
    ∧ 1024 < rd16 [0x5A#8, 0x01#8, 0x04#8] 1 ∧ outputBlocked (withFrames 16 aReply (station .saw)).port = true
    ∧ commandOf .faultRead = some .faultRead ∧ 16 ≤ (withFrames 16 aReply (station .saw)).port.out.length
    ∧ (∀ e ∈ (withFrames 16 aReply (station .saw)).port.out, isSignal e.frame = true → e.begun = true) := by
  decide +kernel

/-- What may be received: bytes to skip, bodies at the bounds, a bad check, a length of 1025, a frame cut short. -/
theorem witness_DroppedFrameCounts_stream :
    (∀ b ∈ ungapped [0x00#8, 0xFF#8], b.byte ≠ 0x5A#8) ∧ ([] : List Byte).length ≤ 1024
    ∧ (List.replicate 1024 0#8).length ≤ 1024
    ∧ (let bad : List Byte := [0x5A#8, 0x02#8, 0x00#8, 0x03#8, 0xF5#8, 0x01#8, 0xBA#8, 0x5C#8]
      bad.head? = some 0x5A#8 ∧ rd16 bad 1 ≤ 1024 ∧ bad.length = 6 + rd16 bad 1
      ∧ bad.drop (4 + rd16 bad 1) ≠ checkBytes ((bad.drop 1).take (3 + rd16 bad 1))
      ∧ (bad.take 7).head? = some 0x5A#8 ∧ rd16 (bad.take 7) 1 ≤ 1024 ∧ (bad.take 7).length < 6 + rd16 (bad.take 7) 1
      ∧ (bad.take 2).length < 3)
    ∧ 1024 < (1#8).toNat + 256 * (4#8).toNat := by decide +kernel

theorem witness_CommandTests :
    commandOf (.claim slabB.id 0 1) = some .claim ∧ outputBlocked (station .saw).port = false
    ∧ State.reset.boot.runState = .starting ∧ outputBlocked State.reset.port = false
    ∧ (busy (station .saw)).boot.runState ≠ .starting ∧ (busy (station .saw)).port.outstanding ≠ none
    ∧ (inState .configFault (station .saw)).boot.runState = .configFault
    ∧ (station .plant).joined = true ∧ (station .plant).port.outstanding = none
    ∧ cmdRole .claim = some .saw ∧ Role.saw ≠ (station .plant).role
    ∧ Reaches .claim (station .saw) ∧ testedInRange (station .saw).cfg (.claim slabB.id 0 1) = false := by
  unfold Reaches; decide +kernel

theorem witness_UnknownCommandAnswered :
    portCommand (0x7F#8).toNat [] = none ∧ portCommand (1#8).toNat [0#8] = none
    ∧ outputBlocked (station .saw).port = false ∧ (station .saw).boot.runState ≠ .starting
    ∧ (station .saw).port.outstanding = none ∧ (0x7F#8 : Byte) ≠ 1#8
    ∧ (busy (station .saw)).port.outstanding ≠ none ∧ outputBlocked (busy (station .saw)).port = false
    ∧ State.reset.boot.runState = .starting ∧ outputBlocked State.reset.port = false
    ∧ (station .saw).ready = true ∧ (silenced (station .saw)).ready = true
    ∧ (inState .configFault (station .saw)).ready = true ∧ (busy (station .saw)).ready = false
    ∧ (fullQueue (station .saw)).ready = false := by decide +kernel

theorem witness_StatusAnswered :
    outputBlocked State.reset.port = false ∧ State.reset.boot.runState = .starting
    ∧ outputBlocked (inState .configFault (station .saw)).port = false
    ∧ (inState .configFault (station .saw)).boot.runState = .configFault
    ∧ (station .saw).boot.runState ≠ .starting ∧ (station .saw).boot.runState ≠ .configFault := by decide +kernel

/-- The figures: a step in progress, and none; a report given at this tick, and none. -/
theorem witness_StatusAnswered_figures :
    cutting.role = .saw ∧ cutting.plan.plan = some plan1
    ∧ cutting.cut.state = .cutting ∧ (plan1.steps[0]?.map (·.status)) = some .inProgress
    ∧ splitting.cut.state = .splitting ∧ splitting.plan.plan = some plan2
    ∧ (∀ st ∈ plan2.steps, st.status ≠ .inProgress) ∧ (station .saw).plan.plan = none
    ∧ (station .plant).role = .plant ∧ (station .plant).plant.report = none
    ∧ { (station .plant).plant with report := some ⟨0, 0, 0, 4294967295⟩ }.report = some ⟨0, 0, 0, 4294967295⟩
    ∧ 4294967295 ≤ { (station .plant).boot with shopTime := 4294967295 }.shopTime
    ∧ reportAge 2 ⟨0, 0, 0, 4294967295⟩ = 3 ∧ reportAge 0 ⟨0, 0, 0, 0⟩ = 0
    ∧ (fullStatus (busy (station .plant))).outstanding = true
    ∧ (fullStatus (station .plant)).outstanding = false := by decide +kernel

/-- R66, R186: no step is current once an abort has ended the one in progress. -/
theorem test_current_step :
    (sawStatus cutting).step = some 1
    ∧ part (fun t => (t.cut.state, (sawStatus t).step)) (exec (.planAbort 5000) cutting)
      = some (.splitting, none) := by decide +kernel

/-- The unknown-record mode quiet. -/
def quietMode (s : State) : State :=
  { s with boot := { s.boot with config := some { s.cfg with unknownMode := .quiet } } }

theorem witness_QueriesAnswered :
    Reaches .querySlab (seeing slabB) ∧ slabIdOk slabB.id = true ∧ (seeing slabB).slab slabB.id = some slabB
    ∧ slabIdOk ⟨30, 65535, 65535⟩ = true ∧ (seeing slabB).slab ⟨30, 65535, 65535⟩ = none
    ∧ (seeing slabB).cfg.unknownMode = .report
    ∧ Reaches .querySlab (quietMode (seeing slabB)) ∧ (quietMode (seeing slabB)).slab ⟨30, 65535, 65535⟩ = none
    ∧ (quietMode (seeing slabB)).cfg.unknownMode = .quiet
    ∧ Reaches .queryJob (station .saw) ∧ jobOk 501 = true ∧ (station .saw).jobEntry 501 = some (job 501 .opened)
    ∧ jobOk 65535 = true ∧ (station .saw).jobEntry 65535 = none ∧ Reaches .queryJob (quietMode (station .saw))
    ∧ (quietMode (station .saw)).jobEntry 65535 = none
    ∧ (inState .configFault (station .saw)).boot.runState = .configFault
    ∧ (inState .configFault (station .saw)).port.outstanding = none
    ∧ outputBlocked (inState .configFault (station .saw)).port = false := by
  unfold Reaches; decide +kernel

theorem witness_StockListPages :
    Reaches .stockList (saw .loaded) ∧ (0 = 0 ∨ 200 < 0 ∨ 5 < 0) ∧ (201 = 0 ∨ 200 < 201 ∨ 5 < 0)
    ∧ (1 = 0 ∨ 200 < 1 ∨ 5 < 6) ∧ 1 ≤ 1 ∧ 1 ≤ 200 ∧ 200 ≤ 200 ∧ 5 ≤ 5
    ∧ (saw .loaded).stock.table.length < 200 := by
  unfold Reaches; decide +kernel

theorem witness_LogReadRemoves :
    Reaches .logRead (station .saw) ∧ 1 ≤ 8 ∧ 8 ≤ 8 ∧ 8 < 9
    ∧ (inState .configFault (station .saw)).boot.runState = .configFault
    ∧ (inState .configFault (station .saw)).port.outstanding = none
    ∧ outputBlocked (inState .configFault (station .saw)).port = false := by
  unfold Reaches; decide +kernel

theorem witness_FaultRecord :
    FaultKind.lineLost ≠ FaultKind.overdraw ∧ flagOf (station .saw).boot.faults .lineLost = false
    ∧ flagOf (raise .lineLost 9 (station .saw)).boot.faults .lineLost = true
    ∧ outputBlocked (station .saw).port = false ∧ (station .saw).port.outstanding = none
    ∧ (station .saw).joined = true ∧ Reaches .faultAck (station .saw) := by
  unfold Reaches; decide +kernel

theorem witness_ClearEmpties :
    Reaches .clear (saw .loaded) ∧ holdsNothing (saw .loaded) = false
    ∧ Reaches .clear (idle .saw) ∧ holdsNothing (idle .saw) = true
    ∧ Reaches .clear (silenced (idle .saw)) ∧ holdsNothing (silenced (idle .saw)) = true := by
  unfold Reaches; decide +kernel

theorem witness_LineTest :
    Reaches .lineTest (idle .saw) ∧ lineClear (idle .saw) = true
    ∧ Reaches .lineTest (saw .loaded) ∧ lineClear (saw .loaded) = false
    ∧ testing.boot.runState = .loopback
    ∧ testing.port.outstanding = some .lineTest
    ∧ (testFrame 9).take 23 = testFrame 9
    ∧ 22 < 23 ∧ ((testFrame 9).take 22).take 22 = (testFrame 9).take 22
    ∧ ((testFrame 9).take 22)[22]? ≠ (testFrame 9)[22]?
    ∧ ([] : List Byte).take 0 = (testFrame 9).take 0 ∧ ([] : List Byte)[0]? ≠ (testFrame 9)[0]? := by
  unfold Reaches; decide +kernel

theorem witness_AutoloadChecks :
    State.reset.boot.phase = .reading ∧ State.reset.boot.runState = .starting
    ∧ firstWrong State.reset.boot.eeprom = some 0
    ∧ firstWrong (Boot.reset eeprom).eeprom = none ∧ (Boot.reset eeprom).phase = .reading
    ∧ (Boot.reset eeprom).runState = .starting := by decide +kernel

/-- R193: a field out of range, a cross-field condition at its later field, the first of two, the sum (offsets worked by hand). -/
theorem test_autoload_offsets :
    firstWrong (eeprom.set 1 31#8) = some 1 ∧ firstWrong (eeprom.set 2 0#8) = some 2
    ∧ firstWrong (eeprom.set 23 0x10#8) = some 22
    ∧ firstWrong ((((eeprom.set 35 200#8).set 36 0#8).set 37 200#8).set 38 0#8) = some 37
    ∧ firstWrong ((eeprom.set 165 0x91#8).set 166 1#8) = some 167 ∧ firstWrong (eeprom.set 171 50#8) = some 171
    ∧ firstWrong ((eeprom.set 197 31#8).set 196 3#8) = some 196 ∧ firstWrong (eeprom.set 198 17#8) = some 254 := by
  decide +kernel

/-- The write-back of the epoch under way. -/
def writingBack : State :=
  { State.reset with boot := { Boot.reset eeprom with phase := .writingEpoch (config .saw) 17 } }

theorem witness_EpochWritten :
    writingBack.boot.phase = .writingEpoch (config .saw) 17 ∧ writingBack.boot.runState = .starting
    ∧ writingBack.line = Line.reset := by decide +kernel

/-- R79, R80: a station configured anew as a plant does not keep the blade and the parked flag it had as a saw. -/
theorem test_cutUnit_of_plant :
    part (fun t => (t.cut.blade, t.cut.parked)) (exec (.epochWriteBack (.confirmed false))
      { State.reset with
        boot := { Boot.reset eeprom with phase := .writingEpoch (config .plant) 17 }
        cut := { CutUnit.reset with blade := ⟨2, 7, 850, 6200000, false⟩, parked := true } })
      = some (⟨0, 0, 0, 0, true⟩, false) := by
  decide +kernel

theorem witness_ConfigWritten :
    eeprom.length = 256
    ∧ (inState .configFault (station .saw)).boot.runState = .configFault
    ∧ (inState .configFault (station .saw)).port.outstanding = none
    ∧ outputBlocked (inState .configFault (station .saw)).port = false
    ∧ Reaches .configWrite (idle .saw) ∧ holdsNothing (idle .saw) = true
    ∧ Reaches .configWrite (saw .loaded) ∧ holdsNothing (saw .loaded) = false
    ∧ { Boot.reset [] with phase := .writingRecord eeprom }.phase = .writingRecord eeprom
    ∧ (Boot.reset []).runState = .starting := by
  unfold Reaches; decide +kernel

theorem witness_EpochKeepsSum : eeprom.length = 256 ∧ 0 < 65536 ∧ 65535 < 65536 := by decide +kernel

theorem witness_ClaimQueued :
    Reaches .claim (seeing slabB) ∧ slabIdOk slabB.id = true ∧ jobOk 501 = true ∧ jobOk 65535 = true
    ∧ QueueOpen (seeing slabB) ∧ (seeing slabB).cut.state ≠ .splitting
    ∧ (seeing slabB).slab slabB.id = some slabB ∧ slabB.state = .free ∧ holdsSlab (seeing slabB) = false
    ∧ ((seeing slabB).jobEntry 501).map (·.state) = some .opened
    ∧ (seeing slabB).jobEntry 65535 = none ∧ jobRoom (seeing slabB).cost.jobs ≠ 0
    ∧ (seeing slabB4).slab slabB.id = some slabB4 ∧ slabB4.state = .claimed
    ∧ slabB4.holder ≠ some (seeing slabB4).station ∧ slabB4.priority.getD 0 < min 255 7 := by
  unfold Reaches QueueOpen; decide +kernel

/-- The line refuses: SILENT, and FULL. -/
theorem witness_ClaimQueued_refused :
    Reaches .claim (silenced (seeing slabB)) ∧ Reaches .claim (fullQueue (seeing slabB))
    ∧ lastFrame (exec (.claim slabB.id 501 5) (silenced (seeing slabB))) = some (.reply ⟨0xA0, .silent, .none⟩)
    ∧ lastFrame (exec (.claim slabB.id 501 5) (fullQueue (seeing slabB))) = some (.reply ⟨0xA0, .full, .none⟩) := by
  unfold Reaches; decide +kernel

theorem witness_OwnSlabCommands :
    QueueOpen claiming ∧ slabIdOk slabB.id = true ∧ Reaches .release claiming ∧ Reaches .load claiming
    ∧ Reaches .unload (saw .loaded) ∧ QueueOpen (saw .loaded) ∧ (saw .loaded).heldSlab = some slabA
    ∧ slabA.state = .loaded ∧ slabA.holder = some (saw .loaded).station
    ∧ Reaches .unload planned ∧ (∀ p ∈ planned.plan.plan, cutBegun p = false)
    ∧ Reaches .unload cutting ∧ Reaches .unload splitting ∧ (∀ p ∈ splitting.plan.plan, cutBegun p = true) := by
  unfold Reaches QueueOpen; decide +kernel

theorem witness_OwnSlabCommands_unload :
    Reaches .unload (idle .saw) ∧ (idle .saw).cut.state = .empty ∧ Reaches .unload claiming
    ∧ claiming.cut.state = .claimed ∧ (∀ r ∈ (idle .saw).heldSlab, ¬ (r.state = .loaded ∧ r.holder = some 9))
    ∧ lastFrame (exec .unload claiming) = some (.reply ⟨0xA3, .wrongState, .none⟩) := by
  unfold Reaches; decide +kernel

theorem witness_OwnSlabCommands_refused :
    Reaches .release (silenced claiming) ∧ Reaches .load (fullQueue claiming)
    ∧ Reaches .unload (fullQueue (saw .loaded))
    ∧ lastFrame (exec (.release slabB.id) (silenced claiming)) = some (.reply ⟨0xA1, .silent, .none⟩)
    ∧ lastFrame (exec (.load slabB.id) (fullQueue claiming)) = some (.reply ⟨0xA2, .full, .none⟩) := by
  unfold Reaches; decide +kernel

theorem witness_StagingCommands :
    Reaches .planBegin (saw .loaded) ∧ slabIdOk slabA.id = true ∧ slabIdOk ⟨30, 65535, 65535⟩ = true
    ∧ axisOf 0 = none ∧ leafKindOf 4 = none ∧ leafKindOf 1 = some .piece
    ∧ Reaches .planPart (staging 5000) ∧ planPartOk [⟨1, 2, 6350⟩] [⟨2, 1, 501, 1⟩] = true
    ∧ planPartOk [] [] = true ∧ (staging 5000).cut.state = .staging
    ∧ (staging 5000).plan.staging = some (staged 5000)
    ∧ planPartOk (List.replicate 12 ⟨1, 1, 0⟩) (List.replicate 12 ⟨1, 3, 0, 0⟩) = true
    ∧ (saw .loaded).cut.state ≠ .staging ∧ Reaches .planPart (saw .loaded)
    ∧ Reaches .planDrop planned ∧ planned.cut.state = .planned := by
  unfold Reaches; decide +kernel

/-- R35, R36, R180: the cut state is tested before the owner's fields, and those before TOO LARGE. -/
theorem test_staging_field_order :
    lastFrame (exec (.planBegin ⟨slabA.id, 0, 1, 1⟩) (saw .empty)) = some (.reply ⟨0xA4, .wrongState, .none⟩)
    ∧ lastFrame (exec (.planBegin ⟨slabA.id, 0, 1, 1⟩) (saw .loaded)) = some (.reply ⟨0xA4, .badField, .none⟩)
    ∧ lastFrame (exec (.planPart [⟨1, 9, 0⟩] []) (saw .loaded)) = some (.reply ⟨0xA5, .wrongState, .none⟩)
    ∧ lastFrame (exec (.planPart (List.replicate 30 ⟨1, 1, 0⟩) []) (staging 5000))
      = some (.reply ⟨0xA5, .badField, .none⟩) := by decide +kernel

theorem witness_PlanEndJudged :
    Reaches .planEnd (staging 5000) ∧ (staging 5000).cut.state = .staging
    ∧ (staging 5000).plan.staging = some (staged 5000)
    ∧ (staging 5000).slab (staged 5000).header.slab = some slabA ∧ slabA.state = .loaded
    ∧ slabA.holder = some (staging 5000).station
    ∧ checkPlan (staging 5000).cfg (staging 5000).bladeType.kerf slabA (staging 5000).cost.jobs 1 (staged 5000) = none
    ∧ checkPlan (staging 5002).cfg (staging 5002).bladeType.kerf slabA (staging 5002).cost.jobs 1 (staged 5002)
      = some (.offGrid, 2)
    ∧ { (staged 5000) with header := ⟨slabB.id, 500, 3, 4⟩ }.header.slab = slabB.id
    ∧ (staging 5000).slab slabB.id = some slabB ∧ slabB.state ≠ .loaded := by
  unfold Reaches; decide +kernel

/-- PLAN-END outside STAGING, CUT-HALTED and CUT-DONE outside CUTTING. -/
theorem witness_wrongState :
    Reaches .planEnd planned ∧ planned.cut.state ≠ .staging ∧ Reaches .cutHalted planned ∧ Reaches .cutDone planned
    ∧ planned.cut.state ≠ .cutting := by
  unfold Reaches; decide +kernel

/-- The staging of section 2.8.1 with other steps, and with other leaves. -/
def withSteps (l : List StagedStep) : Staging := { staged 5000 with steps := l }
def withLeaves (l : List StagedLeaf) : Staging := { staged 5000 with leaves := l }

/-- Checks 2 to 9 on slab 2/17/85. -/
def judge (jobs : List JobEntry) (seqNext : Nat) (g : Staging) : Option CheckFault :=
  checkPlan (config .saw) 35 slabA jobs seqNext g

/-- R38 to R41: a declared count that differs; a region cut twice, and one not yet made; an offset of 0, one that
leaves no second child; a leaf on a region that is cut, and on one that bears a leaf. -/
theorem test_plan_faults :
    judge [] 1 (withSteps [⟨1, .y, 6350⟩]) = some (.tooLarge, 0)
    ∧ judge [] 1 (withSteps [⟨1, .y, 6350⟩, ⟨1, .y, 5000⟩, ⟨5, .x, 12000⟩]) = some (.badRegion, 2)
    ∧ judge [] 1 (withSteps [⟨1, .y, 6350⟩, ⟨4, .y, 5000⟩, ⟨5, .x, 12000⟩]) = some (.badRegion, 2)
    ∧ judge [] 1 (withSteps [⟨1, .y, 6350⟩, ⟨3, .y, 0⟩, ⟨5, .x, 12000⟩]) = some (.outOfRegion, 2)
    ∧ judge [] 1 (withSteps [⟨1, .y, 6350⟩, ⟨3, .y, 11580⟩, ⟨5, .x, 12000⟩]) = some (.outOfRegion, 2)
    ∧ judge [] 1 (withLeaves [⟨2, .piece, 501, 1⟩, ⟨3, .waste, 0, 0⟩, ⟨6, .remnant, 0, 0⟩, ⟨7, .waste, 0, 0⟩])
      = some (.leafExtra, 2)
    ∧ judge [] 1 (withLeaves [⟨2, .piece, 501, 1⟩, ⟨4, .piece, 502, 1⟩, ⟨4, .waste, 0, 0⟩, ⟨7, .waste, 0, 0⟩])
      = some (.leafExtra, 3) := by decide +kernel

/-- R41 to R44: a region without a leaf; defect B lies on region 6; piece job 502 closed, the charge job before it; a
full table; no sequence value left for the remnant, and the last one. -/
theorem test_plan_faults_later :
    judge [] 1 { withLeaves [⟨2, .piece, 501, 1⟩, ⟨4, .piece, 502, 1⟩, ⟨6, .remnant, 0, 0⟩] with
      header := ⟨slabA.id, 500, 3, 3⟩ } = some (.leafMissing, 7)
    ∧ judge [] 1 (withLeaves [⟨2, .piece, 501, 1⟩, ⟨4, .piece, 502, 1⟩, ⟨6, .piece, 502, 2⟩, ⟨7, .waste, 0, 0⟩])
      = some (.defectInPiece, 3)
    ∧ judge [job 502 .closed] 1 (staged 5000) = some (.jobClosed, 2)
    ∧ judge [job 502 .closed, job 500 .closed] 1 (staged 5000) = some (.jobClosed, 0)
    ∧ judge (fullJobs .opened (station .saw)).cost.jobs 1 (staged 5000) = some (.full, 0)
    ∧ judge [] 65536 (staged 5000) = some (.idExhausted, 0) ∧ judge [] 65535 (staged 5000) = none := by
  decide +kernel

/-- The staging of section 2.8.1 fails no check: the step or leaf at each place, one by one. -/
theorem witness_PlanEndJudged_passed :
    let g := staged 5000
    let rs := buildRegions 35 1 g.steps [regionOne slabA 100]
    let step (k : Nat) : Option StagedStep := if k = 0 then none else g.steps[k - 1]?
    let leaf (i : Nat) : Option StagedLeaf := if i = 0 then none else g.leaves[i - 1]?
    (∀ k, 4 ≤ k → step k = none) ∧ (∀ i, 5 ≤ i → leaf i = none)
    ∧ (∀ k < 4, ∀ st ∈ step k, st.region ≠ 0 ∧ st.region ≤ 2 * k - 1
      ∧ ∀ j < k, ∀ st' ∈ step j, st'.region ≠ st.region)
    ∧ (∀ k < 4, ∀ st ∈ step k, 5 ∣ st.offset)
    ∧ (∀ k < 4, ∀ st ∈ step k, ∀ r ∈ rs, r.number = st.region → st.offset ≠ 0
      ∧ st.offset + 35 < (match st.axis with | .x => r.length | .y => r.width)
      ∧ (match st.axis with | .x => r.width | .y => r.length) ≤ 35000)
    ∧ (∀ i < 5, ∀ f ∈ leaf i, f.region ≠ 0 ∧ f.region ≤ 7 ∧ (∀ st ∈ g.steps, st.region ≠ f.region)
      ∧ ∀ j < i, ∀ f' ∈ leaf j, f'.region ≠ f.region)
    ∧ (∀ m < 8, m = 0 ∨ (∃ st ∈ g.steps, st.region = m) ∨ ∃ f ∈ g.leaves, f.region = m)
    ∧ (∀ i < 5, ∀ f ∈ leaf i, f.kind = .piece → ∀ r ∈ rs, r.number = f.region → ∀ d ∈ slabA.defects,
      ¬ (max d.x r.x < min (d.x + d.length) (r.x + r.length) ∧ max d.y r.y < min (d.y + d.width) (r.y + r.width)))
    ∧ [500].Nodup ∧ findJob [job 501 .opened, job 502 .opened] 500 = none
    ∧ (findJob [job 501 .opened, job 502 .opened] 501).isSome = true
    ∧ (findJob [job 501 .opened, job 502 .opened] 502).isSome = true := by
  refine ⟨fun k hk => ?_, fun k hk => ?_, ?_, ?_, ?_, ?_, ?_, ?_, ?_⟩
  · simp only [staged]
    rw [if_neg (by omega), List.getElem?_eq_none (by simp; omega)]
  · simp only [staged]
    rw [if_neg (by omega), List.getElem?_eq_none (by simp; omega)]
  all_goals decide +kernel

theorem witness_AbortAndQueryPlan :
    Reaches .planAbort (staging 5000) ∧ Reaches .planAbort planned
    ∧ (∀ p ∈ planned.plan.plan, cutBegun p = false)
    ∧ Reaches .planAbort suspended ∧ suspended.plan.plan = some plan1 ∧ suspended.cut.state = .suspended
    ∧ Reaches .planAbort cutting ∧ cutting.cut.state = .cutting
    ∧ (closeSegment 0 cutting).plan.plan = some plan1
    ∧ Reaches .planAbort (saw .loaded) ∧ (saw .loaded).cut.state = .loaded
    ∧ Reaches .queryPlan splitting ∧ splitting.plan.plan = some plan2
    ∧ Reaches .queryPlan (saw .splitting) ∧ (saw .splitting).plan.plan = none
    ∧ cutBegun plan2 = true := by
  unfold Reaches; decide +kernel

/-- Regions of each status, in ascending order; ids for every remnant, and for none. -/
theorem witness_AbortAndQueryPlan_resolved :
    Reaches .queryPlan (staging 5000) ∧ (staging 5000).plan.staging = some (staged 5000)
    ∧ (∀ p ∈ [plan, plan1, plan2, plan3], p.regions.Pairwise (fun a b => a.number < b.number))
    ∧ plan.regions.map (·.status) = [.whole, .awaiting, .awaiting, .awaiting, .awaiting, .awaiting, .awaiting]
    ∧ plan2.regions.map (·.status) = [.divided, .leaf, .whole, .awaiting, .awaiting, .awaiting, .awaiting]
    ∧ plan3.regions.map (·.status) = [.divided, .leaf, .divided, .leaf, .inCut, .awaiting, .awaiting]
    ∧ (outcomesOf lastStep plan3).map (fun o => (o.kind, o.region, o.leaf))
      = [(.piece 501 1, 2, some 1), (.piece 502 1, 4, some 2), (.remnant false, 5, none)]
    ∧ (outcomesOf { lastStep with stock := { lastStep.stock with seqNext := 65536 } } plan3).map (fun o => o.kind)
      = [.piece 501 1, .piece 502 1, .waste] := by
  unfold Reaches; decide +kernel

theorem witness_CutAskAnswered :
    Reaches .cutAsk planned ∧ planned.cut.state = .planned ∧ planned.cut.parked = false
    ∧ planned.cut.priming = none ∧ planned.water.stop = false
    ∧ planned.bladeType.wornLimit < planned.cut.blade.height
    ∧ minWetting planned.bladeType ≤ planned.ownGrant ∧ QueueOpen planned
    ∧ Reaches .cutAsk (silenced planned) ∧ Reaches .cutAsk (fullQueue planned)
    ∧ 12 ≤ (fullQueue planned).line.queue.length := by
  unfold Reaches QueueOpen; decide +kernel

theorem witness_CutAskAnswered_else :
    Reaches .cutAsk (stopped planned) ∧ (stopped planned).water.stop = true
    ∧ Reaches .cutAsk (stopped suspended) ∧ Reaches .cutAsk suspended ∧ suspended.cut.state = .suspended
    ∧ suspended.water.stop = false ∧ suspended.plan.plan = some plan1 ∧ currentStep plan1 = some 1
    ∧ (stepAt plan1 1).isSome = true ∧ (findRegion plan1.regions 1).isSome = true
    ∧ ((stepAt plan1 1).map (·.region)) = some 1
    ∧ Reaches .cutAsk cutting ∧ cutting.cut.state = .cutting
    ∧ Reaches .cutAsk (saw .loaded) ∧ (saw .loaded).cut.state = .loaded := by
  unfold Reaches; decide +kernel

theorem witness_SegmentCloses :
    cutting.plan.plan = some plan1 ∧ cutting.cut.state = .cutting ∧ cutting.cut.segment = some segment
    ∧ cutting.cut.waiting = false ∧ Reaches .cutHalted cutting ∧ Reaches .cutDone cutting
    ∧ segment.step = 0 + 1 ∧ (plan1.steps[0]?).map (·.region) = some 1
    ∧ (∃ x ∈ (finishStep 1 (recordSegment 1 (figuresNow cutting segment 30000) plan1)).steps, x.status = .pending)
    ∧ (∃ x ∈ (finishStep 1 plan1).steps, x.status = .pending) ∧ min 0 (stepRemaining plan1 1) = 0
    ∧ min 65535 (stepRemaining plan1 1) = 30000 := by
  unfold Reaches; decide +kernel

/-- Job 500 unknown with room, known, in a full table with and without a CLOSED entry; the log below its end, at the
threshold and full. -/
theorem witness_SegmentCloses_charged :
    plan1.header.chargeJob = 500 ∧ (logs 127 cutting).cost.log.length < 128 ∧ 128 ≤ (logs 128 cutting).cost.log.length
    ∧ cutting.jobEntry 500 = none ∧ cutting.cost.jobs.length < 64
    ∧ (withJobs [job 500 .opened] cutting).jobEntry 500 = some (job 500 .opened)
    ∧ (withJobs [job 500 .closed] cutting).jobEntry 500 = some (job 500 .closed)
    ∧ (fullJobs .closed cutting).jobEntry 500 = none ∧ 64 ≤ (fullJobs .closed cutting).cost.jobs.length
    ∧ ((fullJobs .closed cutting).cost.jobs.any fun x => decide (x.state = .closed)) = true
    ∧ ((fullJobs .opened cutting).cost.jobs.any fun x => decide (x.state = .closed)) = false
    ∧ (logs 95 cutting).cost.armed = true
    ∧ (logs 95 cutting).cfg.logThreshold ≤ (logs 95 cutting).cost.log.length + 1
    ∧ (logs 95 cutting).port.out.length < 12 := by decide +kernel

theorem witness_PlanCompletes :
    Reaches .cutDone lastStep ∧ lastStep.cut.state = .cutting
    ∧ lastStep.cut.segment = some { segment with step := 3 } ∧ lastStep.plan.plan = some plan3
    ∧ lastStep.heldSlab = some slabA
    ∧ { segment with step := 3 }.step = 2 + 1 ∧ (plan3.steps[2]?).map (·.region) = some 5
    ∧ (∀ x ∈ (finishStep 3 (recordSegment 3 (figuresNow lastStep { segment with step := 3 } 6580) plan3)).steps,
      x.status ≠ .pending)
    ∧ (∀ x ∈ (finishStep 3 plan3).steps, x.status ≠ .pending) ∧ min 6580 (stepRemaining plan3 3) = 6580
    ∧ (plan3.regions.map (·.number)).Nodup ∧ lastStep.line.waiters = [] ∧ drawWaiting lastStep.line = false
    ∧ lastStep.boot.listenOnly = false := by
  unfold Reaches; decide +kernel

/-- R101, R146: the charge job is created and charged, 501 is CLOSED and 502 OPEN (section 5.6). -/
theorem test_plan_charges :
    part (fun t => t.cost.jobs.map fun e => (e.job, e.slab, e.late, e.pieces)) (exec (.cutDone 6580)
        (withJobs [job 501 .closed, job 502 .opened] lastStep))
      = some [(501, 0, 57321, 0), (502, 45133, 0, 1), (500, 0, 0, 0)] := by decide +kernel

/-- In listen-only, and with no sequence value left. -/
theorem witness_PlanCompletes_silent :
    Reaches .cutDone (silenced lastStep) ∧ (silenced lastStep).boot.listenOnly = true
    ∧ (silenced lastStep).heldSlab = some slabA ∧ slabA.state = .loaded
    ∧ slabA.holder = some (silenced lastStep).station ∧ (silenced lastStep).slab ⟨9, 17, 2⟩ = none
    ∧ part (fun t => (t.cut.state, t.stock.table.map (·.slab.state))) (exec (.cutDone 6580) (silenced lastStep))
      = some (.empty, [.cut, .free, .free])
    ∧ part (fun t => (t.cut.splitLeft, t.stock.seqNext)) (exec (.cutDone 6580)
      { lastStep with stock := { lastStep.stock with seqNext := 65536 } }) = some (1, 65536) := by
  unfold Reaches; decide +kernel

theorem witness_BladeChanged :
    Reaches .bladeChange cutting ∧ bladeChangeOk cutting.cfg 7 99999999 1200 = true ∧ cutting.cut.state = .cutting
    ∧ Reaches .bladeChange planned ∧ bladeChangeOk planned.cfg 0 0 0 = true ∧ planned.plan.plan = some plan
    ∧ (planned.cfg.blades.getD 0 BladeType.blank).kerf = plan.kerf
    ∧ (planned.cfg.blades.getD 0 BladeType.blank).kerf ≠ { plan with kerf := 30 }.kerf
    ∧ Reaches .bladeChange (saw .loaded) ∧ (saw .loaded).cut.state = .loaded := by
  unfold Reaches; decide +kernel

/-- Parked. -/
def parked (s : State) : State := { s with cut := { s.cut with parked := true } }

theorem witness_Parking :
    Reaches .park cutting ∧ cutting.cut.state = .cutting
    ∧ Reaches .park (saw .loaded) ∧ (saw .loaded).cut.state ≠ .cutting ∧ (saw .loaded).cut.state ≠ .suspended
    ∧ (saw .loaded).cut.state ≠ .splitting ∧ (saw .loaded).cut.parked = false ∧ QueueOpen (saw .loaded)
    ∧ drawWaiting (saw .loaded).line = false
    ∧ Reaches .park (parked (saw .loaded)) ∧ (parked (saw .loaded)).cut.parked = true
    ∧ Reaches .park (silenced (saw .loaded)) ∧ (silenced (saw .loaded)).boot.listenOnly = true
    ∧ Reaches .park (drawing (saw .loaded)) ∧ drawWaiting (drawing (saw .loaded)).line = true
    ∧ Reaches .park (fullQueue (saw .loaded)) ∧ 12 ≤ (fullQueue (saw .loaded)).line.queue.length
    ∧ drawWaiting (fullQueue (saw .loaded)).line = false
    ∧ Reaches .unpark (parked (saw .loaded)) ∧ QueueOpen (parked (saw .loaded))
    ∧ Reaches .unpark (drawing (parked (saw .loaded))) ∧ Reaches .unpark (silenced (parked (saw .loaded)))
    ∧ Reaches .unpark (fullQueue (parked (saw .loaded))) := by
  unfold Reaches QueueOpen; decide +kernel

theorem witness_PlantReportWorked :
    Reaches .plantReport (station .plant) ∧ 2000 ≤ 2000 ∧ 0 ≤ 2000 ∧ (station .plant).cfg.lowMark ≠ 0
    ∧ (station .plant).plant.stop = false ∧ 0 + 0 = 0 ∧ 2000 + 0 ≠ 0
    ∧ (station .plant).plant.announced = none ∧ (station .plant).boot.listenOnly = false := by
  unfold Reaches; decide +kernel

theorem witness_PlantTimers :
    (reporting (station .plant)).inService = true ∧ (reporting (station .plant)).plant.reportTimer = some 0
    ∧ (reporting (station .plant)).plant.announceTimer = some 0
    ∧ QueueOpen (reporting (station .plant)) ∧ (reporting (station .plant)).plant.announced = none
    ∧ (allEntries (reporting (station .plant)).line).any isPlant = false
    ∧ (silenced (reporting (station .plant))).boot.listenOnly = true
    ∧ (silenced (reporting (station .plant))).inService = true
    ∧ (allEntries (onLine .waitQuiet [queued (.plant 1 2 true false)] (station .plant)).line).any isPlant = true
    ∧ State.reset.inService = false ∧ (station .plant).plant.reportTimer = none
    ∧ (station .plant).plant.announceTimer = none := by
  unfold QueueOpen; decide +kernel

/-- R138: the notice of a stale plant has capacity 0. -/
theorem test_report_expires :
    part (fun t => t.line.queue.map (·.notice)) (exec .reportTimerExpiry
      { reporting (station .plant) with plant := { (reporting (station .plant)).plant with
          capacity := 90, fresh := 25, announced := some ⟨90, true, false⟩ } })
      = some [.plant 0 25 true true] := by decide +kernel

theorem witness_YardInIssued :
    Reaches .yardIn (station .console) ∧ yardInOk 4 10 40000 25000 [⟨0, 0, 40000, 25000⟩] 99999999 = true
    ∧ (station .console).stock.table.length < 200 ∧ (station .console).stock.seqNext ≤ 65535
    ∧ QueueOpen (station .console) ∧ Reaches .yardIn (silenced (station .console))
    ∧ Reaches .yardIn (fullQueue (station .console)) ∧ 12 ≤ (fullQueue (station .console)).line.queue.length
    ∧ 200 ≤ (fullStock .free (station .console)).stock.table.length
    ∧ (∀ e ∈ (fullStock .free (station .console)).stock.table, e.slab.state ≠ .cut ∧ e.slab.state ≠ .scrapped)
    ∧ (∃ e ∈ (fullStock .cut (station .console)).stock.table, e.slab.state = .cut ∨ e.slab.state = .scrapped)
    ∧ 65535 < { (station .console).stock with seqNext := 65536 }.seqNext := by
  unfold Reaches QueueOpen; decide +kernel

theorem witness_ConsoleCommands :
    QueueOpen (station .console) ∧ slabIdOk slabB.id = true ∧ jobOk 1 = true ∧ jobOk 65535 = true
    ∧ Reaches .scrap (station .console) ∧ Reaches .forceFree (station .console)
    ∧ Reaches .jobOpen (station .console) ∧ Reaches .jobClose (station .console)
    ∧ Reaches .waterOverride (station .console) ∧ Reaches .waterOverride (stopped (station .console))
    ∧ Reaches .jobOpen (silenced (station .console)) ∧ Reaches .jobClose (fullQueue (station .console))
    ∧ lastFrame (exec (.jobOpen 1) (silenced (station .console))) = some (.reply ⟨0xE3, .silent, .none⟩)
    ∧ lastFrame (exec .waterOverride (fullQueue (stopped (station .console)))) = some (.reply ⟨0xE5, .full, .none⟩) := by
  unfold Reaches QueueOpen; decide +kernel

theorem witness_SegmentArithmetic :
    1 ≤ segment.feed ∧ 1 ≤ { segment with feed := 1 }.feed ∧ 1 ≤ 1 ∧ 1 ≤ 4 ∧ 4 ≤ 4 ∧ segment.fresh ≤ 100
    ∧ { segment with fresh := 100 }.fresh ≤ 100 ∧ 1 ≤ blade.q ∧ 60 ≤ blade.f0 ∧ blade.q ≤ 60 := by decide

theorem witness_SplitConserves :
    let os := [outcome (.piece 501 1) 2 190500000, outcome (.piece 502 1) 4 150000000, outcome (.remnant false) 6 78960000,
      outcome .waste 7 118209700]
    0 < 540000000 ∧ (∀ o ∈ os, 0 < o.area) ∧ ((os.filter fun o => !isWaste o).map (·.area)).sum ≤ 540000000
    ∧ os.filter isPiece ≠ [] ∧ [outcome (.remnant false) 1 629640000].filter isPiece = [] := by decide +kernel

/-- A locked and an unlocked entry, each with entries before and after it (section 6.10, event 3). -/
theorem witness_FitRule :
    let ds : List DrawEntry := [⟨4, 60, 60, true, none⟩, ⟨9, 80, 80, false, none⟩, ⟨12, 50, 10, false, none⟩]
    ds = [] ++ ⟨4, 60, 60, true, none⟩ :: ds.drop 1 ∧ ds = ds.take 1 ++ ⟨9, 80, 80, false, none⟩ :: ds.drop 2
    ∧ ds = ds.take 2 ++ ⟨12, 50, 10, false, none⟩ :: [] := by decide +kernel

/-- The station revalidating the notice at the head, with nothing behind it. -/
def heading (n : Notice) (s : State) : State := onLine .waitQuiet [queued n] s

theorem witness_StockRevalidation :
    let r9 : SlabRecord :=
      { slabB with state := .claimed, holder := some 9, job := some 501, priority := some 5, version := 7 }
    (heading (.claim 6 r9) (seeing slabB)).joined = true
    ∧ (heading (.claim 6 r9) (seeing slabB)).line.access = .waitQuiet
    ∧ (heading (.claim 6 r9) (seeing slabB)).line.waiters = []
    ∧ (heading (.claim 6 r9) (seeing slabB)).stock.heldExpiry = false
    ∧ (seeing slabB).slab r9.id = some slabB ∧ slabB.state = .free ∧ slabB.version = 6
    ∧ (seeing slabB4).slab r9.id = some slabB4 ∧ slabB4.version ≠ 6
    ∧ slabB4.holder ≠ some (seeing slabB4).station ∧ slabB4.priority.getD 0 < r9.priority.getD 0
    ∧ (seeing slabB).jobEntry (r9.job.getD 0) = some (job 501 .opened)
    ∧ (station .saw).slab r9.id = none
    ∧ [slabB].filterMap (fun r => (seeing slabB).slab r.id) ≠ []
    ∧ [slabA].filterMap (fun r => (seeing slabB).slab r.id) = [] := by decide +kernel

theorem witness_WaterRevalidation :
    (heading (.draw 60 true 45) planned).joined = true ∧ (heading (.draw 60 true 45) planned).line.waiters = []
    ∧ (heading (.draw 60 true 45) planned).line.access = .waitQuiet
    ∧ (heading (.draw 60 true 45) planned).stock.heldExpiry = false
    ∧ planned.cut.state = .planned ∧ planned.water.stop = false ∧ minWetting planned.bladeType ≤ planned.ownGrant
    ∧ (saw .loaded).cut.state ≠ .planned ∧ (stopped planned).water.stop = true
    ∧ (idle .saw).ownGrant < minWetting (idle .saw).bladeType ∧ cutting.cut.state = .cutting
    ∧ { queued (.draw 60 true 45) with purpose := some DrawPurpose.lock }.purpose = some .lock
    ∧ (queued (.draw 60 true 45)).purpose ≠ some DrawPurpose.lock
    ∧ (stopped (station .console)).water.stop = true ∧ (station .console).water.stop = false := by decide +kernel

/-- A second entry waits behind the one withdrawn. -/
theorem witness_WaterRevalidation_next :
    let s := onLine .waitQuiet [queued .waterOverride, queued .restart] (station .console)
    s.joined = true ∧ s.line.access = .waitQuiet ∧ s.line.queue = queued .waterOverride :: queued .restart :: []
    ∧ (queued .waterOverride).notice = .waterOverride ∧ (queued .restart).notice = .restart ∧ s.water.stop = false
    ∧ s.line.waiters = [] ∧ s.stock.heldExpiry = false := by decide +kernel

/-- The station sending the notice at the head, with nothing behind it. -/
def sendingOut (n : Notice) (s : State) : State := onLine .sending [queued n] s

theorem witness_CleanEcho :
    let r9 : SlabRecord :=
      { slabB with state := .claimed, holder := some 9, job := some 501, priority := some 5, version := 7 }
    (sendingOut (.claim 6 r9) (seeing slabB)).line.access = .sending
    ∧ (sendingOut (.claim 6 r9) (seeing slabB)).line.queue = queued (.claim 6 r9) :: []
    ∧ (sendingOut (.claim 6 r9) (seeing slabB)).line.waiters = []
    ∧ (seeing slabB).slab r9.id = some slabB ∧ slabB.version = 6 ∧ slabB.state = .free ∧ r9.state = .claimed
    ∧ (seeing slabB).jobEntry 501 ≠ none ∧ r9.job.getD 0 = 501
    ∧ (withJobs [] (seeing slabB)).jobEntry 501 = none
    ∧ (withJobs (List.replicate 64 (job 7 .closed)) (seeing slabB)).jobEntry 501 = none
    ∧ (withJobs (List.replicate 64 (job 7 .opened)) (seeing slabB)).jobEntry 501 = none
    ∧ ([⟨.orphan slabB.id, [queued .restart]⟩] : List Waiter)
      = (⟨.orphan slabB.id, queued .restart :: []⟩ : Waiter) :: [] := by
  decide +kernel

/-- R12, R143: an own CLAIM names a job not known: created, in place of the oldest CLOSED one, or JOB_FULL. -/
theorem test_claim_creates_job :
    let r9 : SlabRecord :=
      { slabB with state := .claimed, holder := some 9, job := some 501, priority := some 5, version := 7 }
    let after (jobs : List JobEntry) := part (fun t => (t.cost.jobs.map (·.job), t.boot.faults.jobFull))
      (exec .cleanEcho (sendingOut (.claim 6 r9) (withJobs jobs (seeing slabB))))
    after [] = some ([501], false)
    ∧ after (job 8 .closed :: List.replicate 63 (job 7 .opened)) = some (List.replicate 63 7 ++ [501], false)
    ∧ after (List.replicate 64 (job 7 .opened)) = some (List.replicate 64 7, true) := by decide +kernel

/-- The locking DRAW of a CUT-ASK, and another DRAW. -/
theorem witness_CleanEcho_draw :
    let e : QEntry := { entry (.draw 60 true 45) (some .cutAsk) with purpose := some .lock }
    let s := onLine .sending [e] planned
    s.line.access = .sending ∧ s.line.queue = e :: [] ∧ s.line.waiters = [] ∧ e.notice = .draw 60 true 45
    ∧ e.purpose = some .lock ∧ e.cmd = some .cutAsk ∧ s.cut.state = .planned ∧ s.plan.plan = some plan
    ∧ (plan.steps[0]?).map (fun st => (st.region, st.status)) = some (1, .pending)
    ∧ (∀ i < 0, ∀ x ∈ plan.steps[i]?, x.status ≠ .pending) ∧ (findRegion plan.regions 1).isSome = true
    ∧ (entry (.draw 60 true 45) (some .park)).purpose ≠ some .lock
    ∧ (entry (.draw 60 true 45) (some .park)).cmd = some .park := by
  decide +kernel

/-- R46: the first step of a plan granted, and ended: the regions. -/
theorem test_step_regions :
    plan1.regions.map (·.status) = [.inCut, .awaiting, .awaiting, .awaiting, .awaiting, .awaiting, .awaiting]
    ∧ plan2.regions.map (·.status) = [.divided, .leaf, .whole, .awaiting, .awaiting, .awaiting, .awaiting] := by
  decide +kernel

theorem witness_OwnNoticesApplied :
    (sendingOut .restart claiming).line.access = .sending ∧ (sendingOut .restart claiming).line.waiters = []
    ∧ (sendingOut .restart claiming).line.queue = queued .restart :: []
    ∧ slabB.state = .free ∧ (station .console).cut.held ≠ some slabB.id ∧ (station .console).slab slabB.id = none
    ∧ (station .console).stock.table.length < 200
    ∧ (fullStock .free (station .console)).slab slabB.id = none
    ∧ (fullStock .cut (station .console)).slab slabB.id = none
    ∧ 200 ≤ (fullStock .free (station .console)).stock.table.length
    ∧ ((fullStock .cut (station .console)).stock.table.any fun x =>
      decide (x.slab.state = .cut) || decide (x.slab.state = .scrapped)) = true
    ∧ (∀ x ∈ (fullStock .free (station .console)).stock.table, x.slab.state ≠ .cut ∧ x.slab.state ≠ .scrapped) := by
  decide +kernel

theorem witness_OwnNoticesApplied_slabs :
    claiming.slab slabB.id = some slabB9 ∧ slabB9.state = .claimed ∧ slabB9.holder = some claiming.station
    ∧ splitting.slab slabA.id = some slabA ∧ slabA.state = .loaded ∧ slabA.holder = some splitting.station
    ∧ splitting.cut.state = .splitting ∧ 2 ≤ { splitting.cut with splitLeft := 2 }.splitLeft
    ∧ { splitting.cut with splitLeft := 1 }.splitLeft = 1
    ∧ (seeing slabB4).slab slabB.id = some slabB4 ∧ slabB4.holder ≠ some (seeing slabB4).station
    ∧ slabB4.state = .claimed ∧ (seeing slabB).slab slabB.id = some slabB
    ∧ slabB.holder ≠ some (seeing slabB).station
    ∧ (∀ r ∈ [slabB], ∃ v ∈ (seeing slabB).slab r.id, v.version = r.version) := by decide +kernel

/-- An own fragment with the parent and a child, one with a child alone, and one that finds no room. -/
theorem witness_OwnNoticesApplied_children :
    let child : SlabRecord := { slabB with id := ⟨9, 17, 2⟩, parent := some slabA.id, place := 9, version := 1 }
    let full := fullStock .free splitting
    (cutRecord slabA).state = .cut ∧ child.state = .free ∧ splitting.slab child.id = none
    ∧ ([child].map (·.id)).Nodup ∧ 200 ≤ full.stock.table.length ∧ full.slab child.id = none
    ∧ (full.stock.table.any fun x => decide (x.slab.state = .cut) || decide (x.slab.state = .scrapped)) = false
    ∧ part (fun t => t.stock.table.map fun x => (x.slab.id, x.slab.state))
        (exec .cleanEcho (sendingOut (.split 4 [cutRecord slabA, child]) splitting))
      = some [(slabA.id, .cut), (slabB.id, .free), (child.id, .free)] := by decide +kernel

theorem witness_OwnNoticesApplied_jobs :
    (station .console).jobEntry 501 = some (job 501 .opened) ∧ (station .console).jobEntry 500 = none
    ∧ (station .console).cost.jobs.length < 64 ∧ (fullJobs .closed (station .console)).jobEntry 500 = none
    ∧ (fullJobs .opened (station .console)).jobEntry 500 = none
    ∧ 64 ≤ (fullJobs .closed (station .console)).cost.jobs.length
    ∧ ((fullJobs .closed (station .console)).cost.jobs.any fun x => decide (x.state = .closed)) = true
    ∧ ((fullJobs .opened (station .console)).cost.jobs.any fun x => decide (x.state = .closed)) = false := by
  decide +kernel

theorem witness_EchoDiffers :
    (sendingOut .restart (station .saw)).line.access = .sending
    ∧ (sendingOut .restart (station .saw)).line.queue = queued .restart :: []
    ∧ { queued .restart with attempts := 7 }.attempts < 8 ∧ 8 ≤ { queued .restart with attempts := 8 }.attempts
    ∧ (sendingOut .restart (station .saw)).line.waiters = []
    ∧ (sendingOut .restart (station .saw)).stock.heldExpiry = false
    ∧ (queued (.split 4 [slabA])).second = false ∧ (station .saw).boot.listenOnly = false
    ∧ (onLine (.deferring 1) [queued .restart] (station .saw)).line.access = .deferring 1 := by decide +kernel

/-- R14: an expiry held by a LOAD of a slab that is still claimed here, and by one of a slab that is not. -/
def holding (v : SlabRecord) (attempts : Nat) (a : Access) : State :=
  let s := onLine a [{ entry (.load 6 slabB9) (some .load) with attempts := attempts }] claiming
  { s with stock := { s.stock with table := [⟨v, none⟩], window := none, heldExpiry := true } }

theorem witness_heldExpiry :
    let kept := holding slabB9 8 .sending
    let gone := holding slabB4 0 .waitQuiet
    kept.line.access = .sending ∧ kept.line.waiters = [] ∧ kept.stock.heldExpiry = true
    ∧ kept.cut.held = some slabB9.id ∧ kept.slab slabB9.id = some slabB9 ∧ slabB9.state = .claimed
    ∧ slabB9.holder = some kept.station ∧ kept.boot.listenOnly = false ∧ slabB9.version ≠ 6
    ∧ gone.joined = true ∧ gone.line.access = .waitQuiet ∧ gone.slab slabB9.id = some slabB4
    ∧ slabB4.version ≠ 6 ∧ slabB4.holder ≠ some gone.station := by decide +kernel

/-- R14, R170: LINE_LOST, the answer and LAPSED in this order, and the LAPSE in the queue. -/
theorem test_heldExpiry_lost :
    part (fun t => (t.line.queue.length, t.stock.heldExpiry, t.port.out.length)) (exec .echoMismatch (holding slabB9 8 .sending))
      = some (1, false, 3) := by decide +kernel

/-- The parent's fragment on its second way, as the last of the split and not. -/
def lastTry : QEntry := { queued (.split 4 [cutRecord slabA]) with attempts := 8, second := true }

/-- A split with `n` fragments to apply. -/
def fragmentsLeft (n : Nat) (s : State) : State := { s with cut := { s.cut with splitLeft := n } }

theorem witness_EchoDiffers_second :
    let s := onLine .sending [lastTry] (fragmentsLeft 2 splitting)
    s.line.access = .sending ∧ s.line.queue = lastTry :: [] ∧ 8 ≤ lastTry.attempts ∧ lastTry.second = true
    ∧ lastTry.notice = .split 4 [cutRecord slabA] ∧ s.line.waiters = [] ∧ s.stock.heldExpiry = false
    ∧ s.slab slabA.id = some slabA ∧ slabA.version = 4 ∧ slabA.state = .loaded ∧ slabA.holder = some s.station
    ∧ (cutRecord slabA).state = .cut ∧ s.cut.state = .splitting ∧ 2 ≤ s.cut.splitLeft
    ∧ (onLine .sending [lastTry] (fragmentsLeft 1 splitting)).cut.splitLeft = 1 := by decide +kernel

theorem witness_StockNoticesHeard :
    (seeing slabB).slab slabB.id = some slabB ∧ slabB.version = 6 ∧ Heard 4 1 1 (.claim 6 slabB4) (seeing slabB)
    ∧ slabB.state = .free ∧ slabB.holder ≠ some (seeing slabB).station
    ∧ Heard 30 1 1 (.claim 7 { slabB4 with holder := some 30, priority := some 3, version := 8 }) (seeing slabB4)
    ∧ slabB4.holder ≠ some 30 ∧ slabB4.priority.getD 0 < 3 ∧ slabB4.holder ≠ some (seeing slabB4).station
    ∧ Heard 4 1 1 (.claim 7 { slabB4 with priority := some 3, version := 8 }) claiming
    ∧ slabB9.holder = some claiming.station ∧ slabB9.holder ≠ some 4 := by
  unfold Heard; decide +kernel

/-- R13: an entry FREE that bears this station as holder is not preempted by a CLAIM. -/
theorem test_free_entry_with_holder :
    Heard 4 1 1 (.claim 6 slabB4) (seeing { slabB with holder := some 9 })
    ∧ part (fun t => (t.cut.state, t.port.out.length))
      (exec (.claimNotice 4 6 slabB4) { seeing { slabB with holder := some 9 } with cut := (saw .loaded).cut })
      = some (.loaded, 0) := by
  unfold Heard; decide +kernel

theorem witness_StockNoticesHeard_freeing :
    slabB4.state = .claimed ∧ slabB4.holder = some 4 ∧ Heard 4 1 1 (.lapse 7 slabB) (seeing slabB4)
    ∧ Heard 4 1 1 (.free .released 7 slabB) (seeing slabB4) ∧ Heard 4 1 1 (.load 7 slabB4) (seeing slabB4)
    ∧ Heard 4 1 1 (.free .unloaded 7 slabB) (seeing { slabB4 with state := .loaded }) := by
  unfold Heard; decide +kernel

theorem witness_StockNoticesHeard_ending :
    Heard 4 8 8 (.split 7 [{ slabB with state := .cut }]) (seeing { slabB4 with state := .loaded })
    ∧ Heard 1 1 1 (.free .orphan 7 slabB) (seeing slabB4) ∧ Heard 1 1 1 (.free .orphan 7 slabB) claiming
    ∧ Heard 1 1 1 (.free .forced 7 slabB) (seeing slabB4) ∧ Heard 1 1 1 (.free .forced 7 slabB) claiming
    ∧ Heard 1 1 1 (.scrap 6 slabB) (seeing slabB) := by
  unfold Heard; decide +kernel

theorem witness_CatchUp :
    let newer4 : SlabRecord := { slabB4 with version := 32773 }
    Heard 4 1 1 (.yardIn slabA) (seeing slabB) ∧ (seeing slabB).slab slabA.id = none
    ∧ (seeing slabB).stock.table.length < 200
    ∧ Heard 4 1 8 (.stockState [newer4]) (seeing slabB) ∧ Heard 4 8 8 (.split 0 [newer4]) (seeing slabB)
    ∧ newer4.state ≠ .cut
    ∧ Heard 4 1 1 (stockNotice .claim 9 newer4) (seeing slabB) ∧ (seeing slabB).slab newer4.id = some slabB
    ∧ slabB.version ≠ 9
    ∧ 1 ≤ (newer4.version + (65536 - slabB.version % 65536)) % 65536
    ∧ (newer4.version + (65536 - slabB.version % 65536)) % 65536 ≤ 32767
    ∧ ¬ ({ slabB4 with version := 32774 }.version + (65536 - slabB.version % 65536)) % 65536 ≤ 32767
    ∧ 200 ≤ (fullStock .cut (station .saw)).stock.table.length
    ∧ ((fullStock .cut (station .saw)).stock.table.any fun e =>
      decide (e.slab.state = .cut) || decide (e.slab.state = .scrapped)) = true
    ∧ ((fullStock .free (station .saw)).stock.table.any fun e =>
      decide (e.slab.state = .cut) || decide (e.slab.state = .scrapped)) = false
    ∧ (fullStock .cut (station .saw)).slab slabA.id = none
    ∧ claiming.cut.state ≠ .empty ∧ claiming.cut.held = some newer4.id ∧ claiming.cut.state ≠ .splitting
    ∧ newer4.holder ≠ some claiming.station ∧ claiming.slab newer4.id = some slabB9 := by
  unfold Heard; decide +kernel

theorem witness_FragmentsInOrder :
    [slabB] ≠ [] ∧ Heard 4 1 2 (.split 4 (slabA :: [slabB])) (station .saw)
    ∧ Heard 4 1 2 (.stockState (slabA :: [slabB])) (station .saw) := by
  unfold Heard; decide +kernel

/-- A console whose last answer waits with a fragment of it on the queue, none sent, and one sent. -/
def answering (touched : Bool) : State :=
  let s := onLine .waitQuiet [{ queued (.stockState [slabB]) with batch := 3 }] (station .console)
  { s with stock := { s.stock with table := [⟨slabB, none⟩], answerBatch := 3, answerTouched := touched } }

theorem witness_RestartAndStockAsk_again :
    Heard 4 1 1 .stockAsk (answering false) ∧ (answering false).stock.answerTouched = false
    ∧ (∀ e ∈ allEntries (answering false).line, e.notice = .stockState [slabB] ∧ e.batch = 3)
    ∧ Heard 4 1 1 .stockAsk (answering true) ∧ (answering true).stock.answerTouched = true
    ∧ (answering true).line.waiters = [] ∧ (∀ e ∈ (answering true).stock.table, e.slab.defects.length ≤ 4)
    ∧ part (fun t => t.line.queue.length) (exec (.stockAskNotice 4) (answering false)) = some 1
    ∧ part (fun t => t.line.queue.length) (exec (.stockAskNotice 4) (answering true)) = some 2 := by
  unfold Heard; decide +kernel

theorem witness_RestartAndStockAsk :
    Heard 4 1 1 .restart (seeing slabB4) ∧ Heard 4 1 1 .stockAsk (seeing slabB)
    ∧ (seeing slabB).role ≠ .console ∧ Heard 4 1 1 .stockAsk (station .console)
    ∧ (station .console).role = .console ∧ (station .console).boot.listenOnly = false
    ∧ (station .console).line.waiters = [] ∧ (station .console).line.queue = []
    ∧ (∀ e ∈ (saw .loaded).stock.table, e.slab.defects.length ≤ 4) := by
  unfold Heard; decide +kernel

theorem witness_DrawHeard :
    Heard 4 1 1 (.draw 255 true 60) (station .saw) ∧ Heard 30 1 1 (.draw 0 false 0) (station .saw)
    ∧ (station .saw).water.overdraw = false ∧ (station .saw).port.out.length < 14 := by
  unfold Heard; decide +kernel

/-- Station 4 asks for less, and unlocks at a capacity of 90: water is freed, and the own grant of 45 is below the
request of 60. -/
theorem witness_DrawHeard_prompt :
    let s := station .saw
    Heard 4 1 1 (.draw 50 false 0) s ∧ findDraw s.water.draws 4 = some ⟨4, 60, 60, false, some 350⟩
    ∧ min 50 (s.water.capacity - othersSum s.water.draws 4) < 60 ∧ s.boot.runState = .running
    ∧ s.ownDraw.locked = false ∧ QueueOpen s ∧ drawWaiting s.line = false ∧ drawWaiting (drawing s).line = true
    ∧ part (fun t => (t.ownGrant, t.line.queue.map (·.notice))) (exec (.drawNotice 4 50 false 0) s)
      = some (45, [.draw 60 false 0])
    ∧ part (fun t => (t.ownGrant, t.line.queue.map (·.notice))) (exec (.drawNotice 4 60 false 0)
        { s with water := { s.water with
          capacity := 90, draws := [⟨4, 60, 60, true, some 350⟩, ⟨9, 60, 45, false, none⟩] } })
      = some (45, [.draw 60 false 0])
    ∧ part (fun t => (t.ownGrant, t.line.queue.map (·.notice))) (exec (.drawNotice 4 50 false 0)
        { s with water := { s.water with ownRequest := 45 } }) = some (45, []) := by
  unfold Heard QueueOpen; decide +kernel

theorem witness_PlantHeard :
    Heard 20 1 1 (.plant 2000 100 true false) cutting ∧ Heard 20 1 1 (.plant 0 0 false true) (station .saw)
    ∧ cutting.water.stop = false ∧ cutting.cut.state = .cutting ∧ cutting.cut.segment = some segment
    ∧ cutting.port.out.length < 12 ∧ Heard 2 1 1 .waterOverride (stopped suspended)
    ∧ (stopped suspended).cut.state = .suspended
    ∧ (station .saw).inService = true ∧ (station .saw).water.plantHeard = some 350
    ∧ (station .saw).boot.runState = .running ∧ (station .saw).ownDraw.locked = false ∧ QueueOpen (station .saw)
    ∧ drawWaiting (station .saw).line = false
    ∧ (station .saw).water.capacity < min 151 (station .saw).cfg.maxCapacity
    ∧ (station .saw).ownGrant < (station .saw).water.ownRequest := by
  unfold Heard QueueOpen; decide +kernel

theorem witness_JobNotices :
    ((station .saw).cost.jobs.map (·.job)).Nodup ∧ Heard 4 1 1 (.tally ⟨501, 1, 2, 3, 4, 5, 6, 1⟩) (station .saw)
    ∧ (station .saw).jobEntry 501 = some (job 501 .opened) ∧ (job 501 .opened).state = .opened
    ∧ (job 501 .closed).state = .closed
    ∧ Heard 4 1 1 (.tally ⟨0, 1, 2, 3, 4, 5, 6, 1⟩) (station .saw)
    ∧ (station .saw).jobEntry 500 = none ∧ (station .saw).cost.jobs.length < 64
    ∧ Heard 4 1 1 (.tally ⟨500, 1, 2, 3, 4, 5, 6, 1⟩) (fullJobs .opened (station .saw))
    ∧ (fullJobs .opened (station .saw)).jobEntry 500 = none
    ∧ 64 ≤ (fullJobs .opened (station .saw)).cost.jobs.length
    ∧ ((fullJobs .opened (station .saw)).cost.jobs.any fun e => decide (e.state = .closed)) = false
    ∧ ((fullJobs .closed (station .saw)).cost.jobs.any fun e => decide (e.state = .closed)) = true
    ∧ Heard 2 1 1 (.jobOpen 501) (station .saw) ∧ Heard 2 1 1 (.jobClose 500) (fullJobs .closed (station .saw)) := by
  unfold Heard; decide +kernel

/-- A TALLY for job 500, unknown in a full table with CLOSED entries. -/
theorem witness_JobNotices_eviction :
    Heard 4 1 1 (.tally ⟨500, 1, 2, 3, 4, 5, 6, 1⟩) (fullJobs .closed (station .saw))
    ∧ (fullJobs .closed (station .saw)).jobEntry 500 = none
    ∧ 64 ≤ (fullJobs .closed (station .saw)).cost.jobs.length := by
  unfold Heard; decide +kernel

theorem witness_HearingFaults :
    frameFault [0xB4#8, 0x09#8, 0x10#8, 0x11#8, 0x00#8, 0x79#8, 0xCE#8] ≠ none ∧ (station .saw).joined = true
    ∧ (station .saw).line.access ≠ .sending ∧ State.reset.joined = false
    ∧ (silenced (station .saw)).boot.listenOnly = true ∧ (silenced (station .saw)).joined = true
    ∧ (station .saw).boot.listenOnly = false
    ∧ (∀ e ∈ allEntries (fullQueue (station .saw)).line, e.notice = .restart)
    ∧ 1 ≤ (station .saw).station ∧ (station .saw).station ≤ 30
    ∧ (station .saw).line.midFrame = false ∧ (joinLine true (station .saw)).line.midFrame = true
    ∧ (joinLine true (station .saw)).joined = true ∧ (joinLine true (station .saw)).line.access ≠ .sending := by
  decide +kernel

/-- The parent's fragment waits as the station goes silent: it is the last of the split. -/
theorem witness_HearingFaults_split :
    let e := queued (.split 4 [cutRecord slabA])
    let s := onLine .waitQuiet [e] (fragmentsLeft 1 splitting)
    s.joined = true ∧ s.line.access ≠ .sending ∧ s.boot.listenOnly = false ∧ s.line.waiters = []
    ∧ s.cut.state = .splitting ∧ 1 ≤ s.cut.splitLeft ∧ allEntries s.line = [e]
    ∧ ((allEntries s.line).filter fun e => match e.notice with | .split _ _ => true | _ => false).length
      = s.cut.splitLeft
    ∧ s.slab slabA.id = some slabA ∧ slabA.version = 4 ∧ slabA.state = .loaded ∧ slabA.holder = some s.station
    ∧ (cutRecord slabA).state = .cut
    ∧ part (fun t => (t.cut.state, t.stock.table.map (·.slab.state))) (exec .duplicateNumber s)
      = some (.empty, [.cut, .free]) := by decide +kernel

/-- Priming ends with every check passing: CLEAR-TO-CUT names the next step. -/
theorem witness_OwnTimers_step :
    (priming planned).plan.plan = some plan ∧ nextPending plan = some 1
    ∧ lastFrame (exec .primingEnd (priming planned)) = some (.signal (.clearToCut 1)) := by decide +kernel

theorem witness_OwnTimers :
    claiming.inService = true ∧ claiming.stock.window = some 1190 ∧ claiming.heldSlab = some slabB9
    ∧ slabB9.state = .claimed ∧ slabB9.holder = some claiming.station ∧ QueueOpen claiming
    ∧ claiming.line.queue.any (holdsExpiry slabB9.id) = false
    ∧ (heading (.load 7 slabB9) claiming).line.queue.any (holdsExpiry slabB9.id) = true
    ∧ findSlab [⟨slabB4, some ⟨0, 7⟩⟩] slabB4.id = some ⟨slabB4, some ⟨0, 7⟩⟩
    ∧ (priming (saw .loaded)).cut.priming = some 0 ∧ (saw .loaded).cut.state ≠ .planned
    ∧ (priming planned).cut.state = .planned ∧ (priming planned).inService = true
    ∧ (priming planned).bladeType.wornLimit < (priming planned).cut.blade.height
    ∧ minWetting (priming planned).bladeType ≤ (priming planned).ownGrant ∧ (stopped (priming planned)).water.stop = true
    ∧ (station .saw).water.refresh = some 100 ∧ (idle .saw).water.ownRequest = 0 ∧ (idle .saw).ownGrant = 0
    ∧ (idle .saw).ownDraw.locked = false ∧ (station .saw).water.ownRequest ≠ 0 ∧ QueueOpen (station .saw)
    ∧ drawWaiting (station .saw).line = false
    ∧ findDraw (station .saw).water.draws 4 = some ⟨4, 60, 60, false, some 350⟩ ∧ 4 ≠ (station .saw).station := by
  unfold QueueOpen; decide +kernel

end Sys2Proof.Tests
end

section
/-! PROOF. The charge arithmetic of one segment (R82 to R91): the three quotients of section 6.1 by the inequalities
that define them, each stage inside the ranges of R81, and the obligation on a segment's feed and figures. -/

namespace Sys2Proof.Machine

/-! ### The quotients of section 6.1 -/

theorem quot_of_pos (a : Nat) {b : Nat} (hb : 0 < b) : quot a b = a / b :=
  if_neg hb.ne'

theorem ceilQuot_of_pos (a : Nat) {b : Nat} (hb : 0 < b) : ceilQuot a b = a ⌈/⌉ b :=
  if_neg hb.ne'

theorem roundQuot_of_pos (a : Nat) {b : Nat} (hb : 0 < b) : roundQuot a b = (2 * a + b) / (2 * b) :=
  if_neg hb.ne'

/-- The ceiling is below exactly the numbers whose product with the divisor covers the dividend. -/
theorem ceilQuot_le_iff (a t : Nat) {b : Nat} (hb : 0 < b) : ceilQuot a b ≤ t ↔ a ≤ t * b := by
  rw [ceilQuot_of_pos a hb, ceilDiv_le_iff_le_mul hb, Nat.mul_comm]

theorem ceilQuot_least (a : Nat) {b : Nat} (hb : 0 < b) :
    a ≤ ceilQuot a b * b ∧ ∀ t, a ≤ t * b → ceilQuot a b ≤ t :=
  ⟨(ceilQuot_le_iff a _ hb).mp le_rfl, fun t => (ceilQuot_le_iff a t hb).mpr⟩

/-- Round-half-up is at most half a divisor off, a tie going upwards. -/
theorem roundQuot_nearest (a : Nat) {b : Nat} (hb : 0 < b) :
    2 * a < 2 * (roundQuot a b * b) + b ∧ 2 * (roundQuot a b * b) ≤ 2 * a + b := by
  rw [roundQuot_of_pos a hb]
  have lower : (2 * a + b) / (2 * b) * (2 * b) ≤ 2 * a + b := Nat.div_mul_le_self _ _
  have upper : 2 * a + b < (2 * a + b) / (2 * b) * (2 * b) + 2 * b := Nat.lt_div_mul_add (by omega)
  rw [Nat.mul_left_comm] at lower upper
  omega

/-! ### Stages 1 to 3: the feed -/

theorem hardness_of_class {cls : Nat} (h1 : 1 ≤ cls) (h4 : cls ≤ 4) :
    hardness cls = if cls = 1 then 100 else if cls = 2 then 85 else if cls = 3 then 70 else 55 := by
  interval_cases cls <;> rfl

theorem nominalFeed_of_pos (b : BladeType) (floor : Nat) {thickness : Nat} (cls : Nat) (ht : 1 ≤ thickness) :
    nominalFeed b floor thickness cls
      = max floor (min (b.f0 * 20 * hardness cls / (thickness * 100)) b.f0) := by
  rw [nominalFeed, quot_of_pos _ (by omega)]

theorem floor_le_nominalFeed (b : BladeType) (floor thickness cls : Nat) :
    floor ≤ nominalFeed b floor thickness cls :=
  Nat.le_max_left _ _

theorem nominalFeed_le (b : BladeType) {floor : Nat} (thickness cls : Nat) (hfloor : floor ≤ b.f0) :
    nominalFeed b floor thickness cls ≤ b.f0 :=
  Nat.max_le.mpr ⟨hfloor, Nat.min_le_right _ _⟩

/-- R83: halving keeps the feed between the floor and the nominal feed. -/
theorem seatedFeed_mem_Icc (seating : Bool) {floor nominal : Nat} (h : floor ≤ nominal) :
    floor ≤ seatedFeed seating floor nominal ∧ seatedFeed seating floor nominal ≤ nominal := by
  cases seating
  · exact ⟨h, le_rfl⟩
  · exact ⟨Nat.le_max_left _ _, Nat.max_le.mpr ⟨h, Nat.div_le_self _ _⟩⟩

theorem effectiveFeed_of_pos (b : BladeType) (floor thickness cls grant : Nat) (seating : Bool) (hq : 1 ≤ b.q) :
    effectiveFeed b floor thickness cls grant seating
      = max floor (seatedFeed seating floor (nominalFeed b floor thickness cls) * min grant b.q / b.q) := by
  rw [effectiveFeed, quot_of_pos _ hq, usedGrant]

theorem floor_le_effectiveFeed (b : BladeType) (floor thickness cls grant : Nat) (seating : Bool) :
    floor ≤ effectiveFeed b floor thickness cls grant seating :=
  Nat.le_max_left _ _

/-- R84, R85: the flow charged is at most the full water need, so stage 3 only ever lowers the feed. -/
theorem effectiveFeed_le_seatedFeed (b : BladeType) (floor thickness cls grant : Nat) (seating : Bool)
    (hq : 1 ≤ b.q) :
    effectiveFeed b floor thickness cls grant seating
      ≤ seatedFeed seating floor (nominalFeed b floor thickness cls) := by
  rw [effectiveFeed_of_pos b floor thickness cls grant seating hq]
  refine Nat.max_le.mpr ⟨(seatedFeed_mem_Icc seating (floor_le_nominalFeed ..)).1, ?_⟩
  apply Nat.div_le_of_le_mul
  rw [Nat.mul_comm b.q]
  exact Nat.mul_le_mul_left _ (Nat.min_le_right grant b.q)

theorem effectiveFeed_le (b : BladeType) (floor thickness cls grant : Nat) (seating : Bool) (hq : 1 ≤ b.q)
    (hfloor : floor ≤ b.f0) : effectiveFeed b floor thickness cls grant seating ≤ b.f0 :=
  calc effectiveFeed b floor thickness cls grant seating
      ≤ seatedFeed seating floor (nominalFeed b floor thickness cls) :=
        effectiveFeed_le_seatedFeed b floor thickness cls grant seating hq
    _ ≤ nominalFeed b floor thickness cls := (seatedFeed_mem_Icc seating (floor_le_nominalFeed ..)).2
    _ ≤ b.f0 := nominalFeed_le b thickness cls hfloor

/-- R85: with the full water need the feed is that of stage 2. -/
theorem effectiveFeed_of_full_grant (b : BladeType) (floor thickness cls : Nat) {grant : Nat} (seating : Bool)
    (hq : 1 ≤ b.q) (hgrant : b.q ≤ grant) :
    effectiveFeed b floor thickness cls grant seating
      = seatedFeed seating floor (nominalFeed b floor thickness cls) := by
  rw [effectiveFeed_of_pos b floor thickness cls grant seating hq, Nat.min_eq_right hgrant,
    Nat.mul_div_cancel _ hq]
  exact Nat.max_eq_right (seatedFeed_mem_Icc seating (floor_le_nominalFeed ..)).1

/-! ### Stages 4 to 7: the figures of a closed segment -/

theorem duration_least (length : Nat) {feed : Nat} (hfeed : 1 ≤ feed) :
    length * 60 ≤ duration length feed * feed ∧ ∀ t, length * 60 ≤ t * feed → duration length feed ≤ t :=
  ceilQuot_least _ hfeed

theorem volume_least (flow t : Nat) :
    flow * t ≤ volume flow t * 200 ∧ ∀ v, flow * t ≤ v * 200 → volume flow t ≤ v :=
  ceilQuot_least _ (by decide)

theorem wearRate_of_class (b : BladeType) {cls : Nat} (h1 : 1 ≤ cls) (h4 : cls ≤ 4) :
    wearRate b cls
      = if cls = 1 then b.wear1 else if cls = 2 then b.wear2 else if cls = 3 then b.wear3 else b.wear4 := by
  interval_cases cls <;> rfl

/-- R89: the whole wear and the new remainder divide the accumulator. -/
theorem segmentFigures_wear_split (cfg : ConfigRecord) (b : BladeType) (seg : Segment)
    (remainder length thickness cls : Nat) :
    let f := segmentFigures cfg b seg remainder length thickness cls
    f.wholeWear * 10000000 + f.remainder = remainder + length * thickness * wearRate b cls
      ∧ f.remainder < 10000000 :=
  ⟨Nat.div_add_mod' _ _, Nat.mod_lt _ (by decide)⟩

theorem waterPrice_of_le (recycled fresh : Nat) {fraction : Nat} (h : fraction ≤ 100) :
    waterPrice recycled fresh fraction = (recycled * (100 - fraction) + fresh * fraction) / 100 :=
  if_pos h

theorem timeCost_nearest (rate t : Nat) :
    2 * (rate * t) < 2 * (timeCost rate t * 36000) + 36000
      ∧ 2 * (timeCost rate t * 36000) ≤ 2 * (rate * t) + 36000 :=
  roundQuot_nearest _ (by decide)

theorem waterCost_nearest (v price : Nat) :
    2 * (v * price) < 2 * (waterCost v price * 10000) + 10000
      ∧ 2 * (waterCost v price * 10000) ≤ 2 * (v * price) + 10000 :=
  roundQuot_nearest _ (by decide)

/-- Settles O44: each stage by the inequalities of its quotient, the feed by the bounds of stages 1 to 3. -/
theorem segmentArithmetic : Obligations.SegmentArithmetic := by
  unfold Obligations.SegmentArithmetic
  intro cfg b seg remainder length thickness cls hfeed hcls1 hcls4 hfresh
  dsimp only
  rw [← wearRate_of_class b hcls1 hcls4, ← waterPrice_of_le cfg.recycledPrice cfg.freshPrice hfresh,
    ← hardness_of_class hcls1 hcls4]
  refine ⟨rfl, duration_least length hfeed, volume_least _ _,
    segmentFigures_wear_split cfg b seg remainder length thickness cls,
    timeCost_nearest _ _, waterCost_nearest _ _, rfl, rfl, ?_⟩
  intro hthick hq floor grant seating hfloor
  rw [← nominalFeed_of_pos b floor cls hthick]
  exact ⟨effectiveFeed_of_pos b floor thickness cls grant seating hq,
    floor_le_effectiveFeed b floor thickness cls grant seating,
    effectiveFeed_le b floor thickness cls grant seating hq hfloor,
    effectiveFeed_of_full_grant b floor thickness cls seating hq⟩

end Sys2Proof.Machine
end

section
/-! PROOF. The division of a slab's value over a split (R96 to R100, R103): shares by area never sum to more than what
is shared, the remainder goes to the first largest piece, and the obligation that a split conserves the value. -/

namespace Sys2Proof.Machine

/-! ### Shares by area -/

/-- Rounding each share down never gives out more than the share of the summed area. -/
theorem sum_share_le_share_sum (v whole : Nat) (os : List Outcome) :
    (os.map fun o => v * o.area / whole).sum ≤ v * (os.map (·.area)).sum / whole := by
  induction os with
  | nil => simp
  | cons o os ih =>
    simp only [List.map_cons, List.sum_cons, Nat.mul_add]
    exact (Nat.add_le_add_left ih _).trans (Nat.div_add_div_le_add_div ..)

/-- Shares of a whole that the areas do not exceed sum to at most what is shared. -/
theorem sum_share_le (v : Nat) {whole : Nat} {os : List Outcome} (h : (os.map (·.area)).sum ≤ whole) :
    (os.map fun o => v * o.area / whole).sum ≤ v :=
  (sum_share_le_share_sum v whole os).trans
    (Nat.div_le_of_le_mul (by rw [Nat.mul_comm]; exact Nat.mul_le_mul_right v h))

theorem sum_map_ite_zero (p : Outcome → Bool) (f : Outcome → Nat) (os : List Outcome) :
    (os.map fun o => if p o = true then f o else 0).sum = ((os.filter p).map f).sum := by
  simp [List.sum_map_ite]

/-! ### The kinds of an outcome -/

theorem isWaste_eq_false_of_isRemnant {o : Outcome} (h : isRemnant o = true) : isWaste o = false := by
  unfold isRemnant at h
  split at h <;> simp_all [isWaste]

theorem isWaste_eq_false_of_isPiece {o : Outcome} (h : isPiece o = true) : isWaste o = false := by
  unfold isPiece at h
  split at h <;> simp_all [isWaste]

theorem isPiece_eq_false_of_isRemnant {o : Outcome} (h : isRemnant o = true) : isPiece o = false := by
  unfold isRemnant at h
  split at h <;> simp_all [isPiece]

theorem isPiece_eq_false_of_isWaste {o : Outcome} (h : isWaste o = true) : isPiece o = false := by
  simp_all [isWaste, isPiece]

/-! ### R96 to R98: direct shares and the loss -/

theorem directShare_of_isWaste (value full : Nat) {o : Outcome} (h : isWaste o = true) :
    directShare value full o = 0 :=
  if_pos h

theorem directShare_of_not_isWaste (value : Nat) {full : Nat} {o : Outcome} (hfull : 0 < full)
    (h : isWaste o = false) : directShare value full o = value * o.area / full := by
  rw [directShare, if_neg (by simp [h]), quot_of_pos _ hfull]

theorem sum_directShare (value : Nat) {full : Nat} (os : List Outcome) (hfull : 0 < full) :
    (os.map (directShare value full)).sum
      = ((os.filter fun o => !isWaste o).map fun o => value * o.area / full).sum := by
  rw [← sum_map_ite_zero]
  congr 1
  refine List.map_congr_left fun o _ => ?_
  cases h : isWaste o
  · simp [directShare_of_not_isWaste value hfull h]
  · simp [directShare_of_isWaste value full h]

/-! ### R99: loss shares and the remainder -/

theorem lossShare_of_pos (loss : Nat) {areas : Nat} (o : Outcome) (h : 0 < areas) :
    lossShare loss areas o = loss * o.area / areas :=
  quot_of_pos _ h

theorem pieceSum_area_pos {os : List Outcome} (hpieces : os.filter isPiece ≠ []) (hpos : ∀ o ∈ os, 0 < o.area) :
    0 < pieceSum (·.area) os := by
  obtain ⟨o, ho⟩ := List.exists_mem_of_ne_nil _ hpieces
  exact (hpos o (List.mem_filter.mp ho).1).trans_le (List.le_sum_of_mem (List.mem_map_of_mem ho))

theorem pieceSum_lossShare (loss : Nat) {os : List Outcome} (h : 0 < pieceSum (·.area) os) :
    pieceSum (lossShare loss (pieceSum (·.area) os)) os
      = ((os.filter isPiece).map fun o => loss * o.area / pieceSum (·.area) os).sum := by
  rw [pieceSum, List.map_congr_left fun o _ => lossShare_of_pos loss o h]

theorem pieceSum_lossShare_le (loss : Nat) {os : List Outcome} (h : 0 < pieceSum (·.area) os) :
    pieceSum (lossShare loss (pieceSum (·.area) os)) os ≤ loss := by
  rw [pieceSum_lossShare loss h]
  exact sum_share_le loss le_rfl

/-- R99: what the loss shares, each rounded down, leave of the loss. -/
def splitRemainder (value full : Nat) (os : List Outcome) : Nat :=
  splitLoss value full os - pieceSum (lossShare (splitLoss value full os) (pieceSum (·.area) os)) os

/-- An outcome with its direct share and, for a piece, its loss share before the remainder. -/
def withShares (value full : Nat) (os : List Outcome) (o : Outcome) : Outcome :=
  { o with amount := directShare value full o
      + if isPiece o = true then lossShare (splitLoss value full os) (pieceSum (·.area) os) o else 0 }

theorem splitValue_outcomes (value full : Nat) (os : List Outcome) :
    (splitValue value full os).outcomes
      = addRemainder (largestPiece os) (splitRemainder value full os) (os.map (withShares value full os)) :=
  rfl

section
variable (value full : Nat) (os : List Outcome) (o : Outcome)

@[simp] theorem withShares_kind : (withShares value full os o).kind = o.kind := rfl
@[simp] theorem withShares_region : (withShares value full os o).region = o.region := rfl
@[simp] theorem withShares_leaf : (withShares value full os o).leaf = o.leaf := rfl
@[simp] theorem withShares_area : (withShares value full os o).area = o.area := rfl
@[simp] theorem isPiece_withShares : isPiece (withShares value full os o) = isPiece o := rfl

end

theorem withShares_amount_of_not_isPiece (value full : Nat) (os : List Outcome) {o : Outcome}
    (h : isPiece o = false) : (withShares value full os o).amount = directShare value full o := by
  simp [withShares, h]

theorem withShares_amount_of_isPiece (value full : Nat) (os : List Outcome) {o : Outcome} (h : isPiece o = true) :
    (withShares value full os o).amount
      = directShare value full o + lossShare (splitLoss value full os) (pieceSum (·.area) os) o := by
  simp [withShares, h]

theorem sum_withShares_amount (value full : Nat) (os : List Outcome) :
    ((os.map (withShares value full os)).map (·.amount)).sum
      = (os.map (directShare value full)).sum
        + pieceSum (lossShare (splitLoss value full os) (pieceSum (·.area) os)) os := by
  rw [pieceSum, ← sum_map_ite_zero, ← List.sum_map_add, List.map_map]
  rfl

theorem withShares_amount_eq (value : Nat) {full : Nat} {os : List Outcome} {o : Outcome} (hfull : 0 < full)
    (hareas : 0 < pieceSum (·.area) os) (h : isPiece o = true) :
    (withShares value full os o).amount
      = value * o.area / full + splitLoss value full os * o.area / pieceSum (·.area) os := by
  rw [withShares_amount_of_isPiece value full os h, lossShare_of_pos _ o hareas,
    directShare_of_not_isWaste value hfull (isWaste_eq_false_of_isPiece h)]

theorem splitRemainder_eq (value full : Nat) {os : List Outcome} (hareas : 0 < pieceSum (·.area) os) :
    splitRemainder value full os = splitLoss value full os
      - ((os.filter isPiece).map fun o => splitLoss value full os * o.area / pieceSum (·.area) os).sum := by
  rw [splitRemainder, pieceSum_lossShare _ hareas]

/-! ### Where the remainder goes -/

theorem largestPiece_spec {os : List Outcome} (h : os.filter isPiece ≠ []) :
    (∃ o ∈ os, isPiece o = true ∧ o.area = largestPiece os)
      ∧ ∀ o ∈ os, isPiece o = true → o.area ≤ largestPiece os := by
  have hmax : ((os.filter isPiece).map (·.area)).max? = some (largestPiece os) := by
    obtain ⟨m, hm⟩ := Option.ne_none_iff_exists'.mp
      (mt List.max?_eq_none_iff.mp (mt (List.map_eq_nil_iff (f := Outcome.area)).mp h))
    rw [largestPiece, ← List.foldl_map (f := Outcome.area) (g := max), List.foldl_max, hm]
    simp
  obtain ⟨hmem, hle⟩ := List.max?_eq_some_iff.mp hmax
  exact ⟨by simpa [and_assoc] using hmem,
    fun o ho hp => hle _ (List.mem_map_of_mem (List.mem_filter.mpr ⟨ho, hp⟩))⟩

/-- R99: `big` is the piece of the largest area in `pre ++ big :: post`, the first one among equals. -/
structure IsFirstLargest (pre : List Outcome) (big : Outcome) (post : List Outcome) : Prop where
  piece : isPiece big = true
  before : ∀ o ∈ pre, isPiece o = true → o.area < big.area
  behind : ∀ o ∈ post, isPiece o = true → o.area ≤ big.area

theorem exists_isFirstLargest {os : List Outcome} (h : os.filter isPiece ≠ []) :
    ∃ pre big post, os = pre ++ big :: post ∧ IsFirstLargest pre big post ∧ big.area = largestPiece os := by
  obtain ⟨⟨m, hm, hpiece, harea⟩, hle⟩ := largestPiece_spec h
  obtain ⟨big, hbig⟩ := Option.isSome_iff_exists.mp
    (List.find?_isSome (p := fun o => decide (isPiece o = true ∧ o.area = largestPiece os)).mpr
      ⟨m, hm, by simp [hpiece, harea]⟩)
  obtain ⟨hbig, pre, post, hos, hpre⟩ := List.find?_eq_some_iff_append.mp hbig
  obtain ⟨hbigPiece, hbigArea⟩ := of_decide_eq_true hbig
  refine ⟨pre, big, post, hos, ⟨hbigPiece, fun o ho hp => ?_, fun o ho hp => ?_⟩, hbigArea⟩
  · have hne : o.area ≠ largestPiece os := by simpa [hp] using hpre o ho
    exact hbigArea ▸ lt_of_le_of_ne (hle o (by simp [hos, ho]) hp) hne
  · exact hbigArea ▸ hle o (by simp [hos, ho]) hp

theorem addRemainder_append (rem : Nat) {pre : List Outcome} {big : Outcome} {post : List Outcome}
    (h : IsFirstLargest pre big post) :
    addRemainder big.area rem (pre ++ big :: post)
      = pre ++ { big with amount := big.amount + rem } :: post := by
  obtain ⟨hpiece, hbefore, hbehind⟩ := h
  induction pre with
  | nil => simp [addRemainder, hpiece]
  | cons o pre ih =>
    have hskip : ¬(isPiece o = true ∧ o.area = big.area) := fun ⟨hp, ha⟩ =>
      (hbefore o List.mem_cons_self hp).ne ha
    rw [List.cons_append, addRemainder, if_neg hskip,
      ih fun o ho => hbefore o (List.mem_cons_of_mem _ ho), List.cons_append]

/-- Adding the remainder changes no outcome but in its amount. -/
theorem addRemainder_keys (largest rem : Nat) (os : List Outcome) :
    (addRemainder largest rem os).map (fun o => (o.kind, o.region, o.leaf, o.area))
      = os.map fun o => (o.kind, o.region, o.leaf, o.area) := by
  induction os with
  | nil => rfl
  | cons o os ih =>
    unfold addRemainder
    split
    · rfl
    · simp [ih]

/-- The remainder touches no remnant and no waste. -/
theorem mem_of_mem_addRemainder {largest rem : Nat} {os : List Outcome} {o : Outcome}
    (ho : o ∈ addRemainder largest rem os) (hpiece : isPiece o = false) : o ∈ os := by
  induction os with
  | nil => exact ho
  | cons x xs ih =>
    unfold addRemainder at ho
    split at ho
    case isTrue hx =>
      rcases List.mem_cons.mp ho with rfl | ho
      · exact absurd hx.1 (Bool.eq_false_iff.mp hpiece)
      · exact List.mem_cons_of_mem _ ho
    case isFalse =>
      rcases List.mem_cons.mp ho with rfl | ho
      · exact List.mem_cons_self
      · exact List.mem_cons_of_mem _ (ih ho)

theorem sum_amount_addRemainder {largest : Nat} (rem : Nat) {os : List Outcome}
    (h : ∃ o ∈ os, isPiece o = true ∧ o.area = largest) :
    ((addRemainder largest rem os).map (·.amount)).sum = (os.map (·.amount)).sum + rem := by
  induction os with
  | nil => simp at h
  | cons o os ih =>
    unfold addRemainder
    split
    case isTrue =>
      simp only [List.map_cons, List.sum_cons]
      omega
    case isFalse hskip =>
      have htail : ∃ x ∈ os, isPiece x = true ∧ x.area = largest := by
        simpa [hskip] using h
      simp only [List.map_cons, List.sum_cons, ih htail, Nat.add_assoc]

theorem addRemainder_of_no_piece (largest rem : Nat) {os : List Outcome} (h : os.filter isPiece = []) :
    addRemainder largest rem os = os := by
  induction os with
  | nil => rfl
  | cons o os ih =>
    obtain ⟨ho, hos⟩ := List.forall_mem_cons.mp (List.filter_eq_nil_iff.mp h)
    rw [addRemainder, if_neg fun hx => ho hx.1, ih (List.filter_eq_nil_iff.mpr hos)]

/-! ### The worked split -/

section
variable (value full : Nat) {os : List Outcome}

/-- R96, R97: what is no piece has its direct share and nothing else. -/
theorem splitValue_amount_of_not_isPiece {o : Outcome} (ho : o ∈ (splitValue value full os).outcomes)
    (h : isPiece o = false) : o.amount = directShare value full o := by
  obtain ⟨x, -, rfl⟩ := List.mem_map.mp (mem_of_mem_addRemainder ho h)
  exact withShares_amount_of_not_isPiece value full os h

theorem splitValue_keys (os : List Outcome) :
    (splitValue value full os).outcomes.map (fun o => (o.kind, o.region, o.leaf, o.area))
      = os.map fun o => (o.kind, o.region, o.leaf, o.area) := by
  simp [splitValue_outcomes, addRemainder_keys, Function.comp_def]

/-- R99: with a piece, every outcome has its shares, and the first largest piece the remainder besides. -/
theorem splitValue_outcomes_of_pieces (h : os.filter isPiece ≠ []) :
    ∃ pre big post, os = pre ++ big :: post ∧ IsFirstLargest pre big post
      ∧ (splitValue value full os).outcomes = pre.map (withShares value full os)
        ++ { withShares value full os big with
              amount := (withShares value full os big).amount + splitRemainder value full os }
          :: post.map (withShares value full os) := by
  obtain ⟨pre, big, post, hos, hbig, harea⟩ := exists_isFirstLargest h
  refine ⟨pre, big, post, hos, hbig, ?_⟩
  have hshared : IsFirstLargest (pre.map (withShares value full os)) (withShares value full os big)
      (post.map (withShares value full os)) :=
    ⟨hbig.piece, List.forall_mem_map.mpr hbig.before, List.forall_mem_map.mpr hbig.behind⟩
  rw [← addRemainder_append _ hshared, withShares_area, harea, ← List.map_cons, ← List.map_append, ← hos,
    splitValue_outcomes]

/-- R100: without a piece, every outcome has its direct share. -/
theorem splitValue_outcomes_of_no_piece (h : os.filter isPiece = []) :
    (splitValue value full os).outcomes = os.map (withShares value full os) := by
  refine addRemainder_of_no_piece _ _ (List.filter_eq_nil_iff.mpr ?_)
  exact List.forall_mem_map.mpr (List.filter_eq_nil_iff.mp h)

end

/-! ### R103: nothing of the value is lost -/

section
variable {value full : Nat} {os : List Outcome}

theorem splitValue_conserves_of_pieces (hpieces : os.filter isPiece ≠ []) (hpos : ∀ o ∈ os, 0 < o.area)
    (hdirect : (os.map (directShare value full)).sum ≤ value) :
    ((splitValue value full os).outcomes.map (·.amount)).sum = value := by
  obtain ⟨⟨m, hm, hlargest⟩, -⟩ := largestPiece_spec hpieces
  have hloss := pieceSum_lossShare_le (splitLoss value full os) (pieceSum_area_pos hpieces hpos)
  calc ((splitValue value full os).outcomes.map (·.amount)).sum
      = ((os.map (withShares value full os)).map (·.amount)).sum + splitRemainder value full os :=
        sum_amount_addRemainder _ ⟨withShares value full os m, List.mem_map_of_mem hm, hlargest⟩
    _ = (os.map (directShare value full)).sum + splitLoss value full os := by
        rw [sum_withShares_amount, splitRemainder, Nat.add_assoc, Nat.add_sub_cancel' hloss]
    _ = value := Nat.add_sub_cancel' hdirect

theorem splitValue_conserves_of_no_piece (hpieces : os.filter isPiece = [])
    (hdirect : (os.map (directShare value full)).sum ≤ value) :
    ((splitValue value full os).outcomes.map (·.amount)).sum + (splitValue value full os).loss = value := by
  rw [splitValue_outcomes_of_no_piece value full hpieces, sum_withShares_amount, pieceSum, hpieces]
  exact Nat.add_sub_cancel' hdirect

theorem noPieces_splitValue (hpieces : os.filter isPiece = []) : noPieces (splitValue value full os) = true := by
  rw [noPieces, splitValue_outcomes_of_no_piece value full hpieces]
  simpa using hpieces

end

/-- Settles O45: the shares of what is no piece, the place of the remainder, and the sum with pieces and without. -/
theorem splitConserves : Obligations.SplitConserves := by
  unfold Obligations.SplitConserves
  intro value full os hfull hpos hareas
  have hle : (os.map (directShare value full)).sum ≤ value := by
    rw [sum_directShare value os hfull]
    exact sum_share_le value hareas
  dsimp only
  rw [← sum_directShare value os hfull]
  refine ⟨rfl, hle, splitValue_keys value full os, fun o ho hremnant => ?_, fun o ho hwaste => ?_,
    fun hpieces => ⟨splitValue_conserves_of_pieces hpieces hpos hle, ?_⟩,
    fun hpieces => ⟨noPieces_splitValue hpieces, splitValue_conserves_of_no_piece hpieces hle⟩⟩
  · rw [splitValue_amount_of_not_isPiece value full ho (isPiece_eq_false_of_isRemnant hremnant),
      directShare_of_not_isWaste value hfull (isWaste_eq_false_of_isRemnant hremnant)]
  · rw [splitValue_amount_of_not_isPiece value full ho (isPiece_eq_false_of_isWaste hwaste),
      directShare_of_isWaste value full hwaste]
  · obtain ⟨pre, big, post, -, hbig, houtcomes⟩ := splitValue_outcomes_of_pieces value full hpieces
    have hpieceAreas := pieceSum_area_pos hpieces hpos
    refine ⟨_, _, _, houtcomes, hbig.piece, List.forall_mem_map.mpr hbig.before,
      List.forall_mem_map.mpr hbig.behind, ?_, ?_⟩
    · rw [← List.map_append]
      exact List.forall_mem_map.mpr fun o _ hp => withShares_amount_eq value hfull hpieceAreas hp
    · exact congrArg₂ (· + ·) (withShares_amount_eq value hfull hpieceAreas hbig.piece)
        (splitRemainder_eq value full hpieceAreas)

end Sys2Proof.Machine
end

section
/-! PROOF. The recycling plant's report (R131 to R136): where a queued notice stands, the figures of section 6.2 worked
from a report, and the obligation on PLANT-REPORT. -/

namespace Sys2Proof.Machine

/-! ### Where a queued notice stands (R165) -/

theorem mem_notices_addWaiter (cause : WaitCause) (es : List QEntry) (ws : List Waiter) (x : QEntry) :
    x ∈ (addWaiter cause es ws).flatMap (·.notices) ↔ x ∈ ws.flatMap (·.notices) ∨ x ∈ es := by
  induction ws with
  | nil => simp [addWaiter]
  | cons w ws ih =>
    unfold addWaiter
    split
    · simp only [List.flatMap_cons, List.mem_append, or_right_comm]
    · rw [List.flatMap_cons, List.mem_append, ih, List.flatMap_cons, List.mem_append, or_assoc]

/-- Notices handed to the line unit stand in its queue or with a waiter, and no entry it held is gone. -/
theorem mem_allEntries_putNotices (cause : WaitCause) (es : List QEntry) (l : Line) (x : QEntry) :
    x ∈ allEntries (putNotices cause es l) ↔ x ∈ allEntries l ∨ x ∈ es := by
  have hwaiters : x ∈ (putNotices cause es l).waiters.flatMap (·.notices)
      ↔ x ∈ l.waiters.flatMap (·.notices) ∨ x ∈ es.drop (queueMax - l.queue.length) := by
    unfold putNotices
    dsimp only
    split
    case isTrue hfits => simp [hfits]
    case isFalse => exact mem_notices_addWaiter ..
  have hsplit : x ∈ es ↔ x ∈ es.take (queueMax - l.queue.length) ∨ x ∈ es.drop (queueMax - l.queue.length) := by
    rw [← List.mem_append, List.take_append_drop]
  have hqueue : x ∈ (putNotices cause es l).queue
      ↔ x ∈ l.queue ∨ x ∈ es.take (queueMax - l.queue.length) := List.mem_append
  rw [allEntries, allEntries, List.mem_append, List.mem_append, hwaiters, hqueue, hsplit, or_or_or_comm]

theorem queueNotices_line (cause : WaitCause) (es : List QEntry) {s : State} (h : s.boot.listenOnly = false) :
    (queueNotices cause es s).line = putNotices cause es s.line := by
  simp [queueNotices, h]

/-! ### The PLANT notice (R136, R137) -/

theorem any_isPlant_queuePlant {s : State} (hlisten : s.boot.listenOnly = false) :
    (allEntries (queuePlant s).line).any isPlant = true := by
  unfold queuePlant
  split
  case isTrue hqueued => exact hqueued
  case isFalse =>
    rw [queueNotices_line _ _ hlisten]
    exact List.any_eq_true.mpr
      ⟨_, (mem_allEntries_putNotices ..).mpr (.inr (List.mem_singleton_self _)), rfl⟩

/-- R136: with nothing announced yet the announcement test queues a PLANT, or finds one queued. -/
theorem any_isPlant_announceTest {s : State} (hannounced : s.plant.announced = none)
    (hlisten : s.boot.listenOnly = false) : (allEntries (announceTest s).line).any isPlant = true := by
  have hdue : announces s = true := by simp [announces, announceDue, hannounced, hlisten]
  rw [announceTest, if_pos hdue]
  exact any_isPlant_queuePlant hlisten

/-! ### The figures worked from a report (R133 to R135) -/

theorem plantCapacity_eq {cfg : ConfigRecord} (level clarifier makeup : Nat) (hlow : cfg.lowMark ≠ 0) :
    plantCapacity cfg level clarifier makeup = min cfg.maxCapacity
      (if cfg.highMark ≤ level then clarifier + makeup + cfg.allowance
      else if cfg.lowMark ≤ level then clarifier + makeup
      else (clarifier + makeup) * level / cfg.lowMark) := by
  rw [plantCapacity, quot_of_pos _ (Nat.pos_of_ne_zero hlow)]

theorem plantStop_eq_true_iff (cfg : ConfigRecord) {stopped : Bool} (level : Nat) (h : stopped = false) :
    plantStop cfg stopped level = true ↔ level ≤ cfg.stopMark := by
  simp [plantStop, h]

theorem plantStop_eq_false_iff (cfg : ConfigRecord) {stopped : Bool} (level : Nat) (h : stopped = true) :
    plantStop cfg stopped level = false ↔ cfg.resumeMark ≤ level := by
  simp [plantStop, h]

theorem plantFresh_of_no_flow {clarifier makeup : Nat} (h : clarifier + makeup = 0) :
    plantFresh clarifier makeup = 0 :=
  if_pos h

theorem plantFresh_of_flow {clarifier makeup : Nat} (h : clarifier + makeup ≠ 0) :
    plantFresh clarifier makeup
      = (200 * makeup + (clarifier + makeup)) / (2 * (clarifier + makeup)) := by
  rw [plantFresh, if_neg h, roundQuot_of_pos _ (Nat.pos_of_ne_zero h), ← Nat.mul_assoc]

/-! ### PLANT-REPORT (R131) -/

theorem startAnnounce_announceTimer (p : Plant) :
    (startAnnounce p).announceTimer = if p.announceTimer = none then some 100 else p.announceTimer := by
  unfold startAnnounce
  cases p.announceTimer <;> rfl

theorem takePlantReport_plant (level clarifier makeup : Nat) (s : State) :
    (takePlantReport level clarifier makeup s).plant = (acceptReport level clarifier makeup s).plant := by
  simp [takePlantReport]

theorem takePlantReport_line (level clarifier makeup : Nat) (s : State) :
    (takePlantReport level clarifier makeup s).line
      = (announceTest (acceptReport level clarifier makeup s)).line := by
  simp [takePlantReport]

/-- A report changes no unit but the plant's, the line's and the port's output. -/
theorem takePlantReport_fields (level clarifier makeup : Nat) (s : State) :
    let t := takePlantReport level clarifier makeup s
    t.boot = s.boot ∧ t.water = s.water ∧ t.stock = s.stock ∧ t.cost = s.cost
      ∧ t.port.outstanding = s.port.outstanding ∧ t.cut = s.cut ∧ t.plan = s.plan := by
  simp [takePlantReport]

/-- R131: the reply carries the figures the plant unit is left with. -/
theorem takePlantReport_reply_mem (level clarifier makeup : Nat) (s : State) :
    let t := takePlantReport level clarifier makeup s
    ∃ announced : Bool, PortFrame.reply ⟨0xC0, .ok,
      .plantReport t.plant.capacity t.plant.fresh t.plant.stop announced⟩ ∈ t.port.out.map (·.frame) := by
  dsimp only
  rw [takePlantReport_plant]
  exact ⟨_, reply_mem .plantReport .ok _ _⟩

theorem exec_plantReport_of_reaches {level clarifier makeup : Nat} {s : State} (h : Reaches .plantReport s)
    (hclarifier : clarifier ≤ 2000) (hmakeup : makeup ≤ 2000) :
    exec (.plantReport level clarifier makeup) s = .next (takePlantReport level clarifier makeup s) := by
  have hok : plantReportOk clarifier makeup = true := by simp [plantReportOk, hclarifier, hmakeup]
  change execPlantReport level clarifier makeup s = _
  rw [execPlantReport, hok, gate_of_reaches h]

/-- Settles O40: the figures by R133 to R135 from the accepted report, the reply and the queued PLANT by R131 and
R136, and the units a report leaves alone. -/
theorem plantReportWorked : Obligations.PlantReportWorked := by
  unfold Obligations.PlantReportWorked
  intro level clarifier makeup s hreach hclarifier hmakeup hlow
  dsimp only
  obtain ⟨hboot, hwater, hstock, hcost, hout, hcut, hplan⟩ := takePlantReport_fields level clarifier makeup s
  have hreply := takePlantReport_reply_mem level clarifier makeup s
  have hexec := exec_plantReport_of_reaches (level := level) hreach hclarifier hmakeup
  obtain ⟨-, -, hidle, -⟩ := hreach
  refine ⟨takePlantReport level clarifier makeup s, hexec, ?report, ?timer, ?stale, ?capacity, ?stop,
    ?resume, ?noFlow, ?flow, ?announced, ?announceTimer, hreply, ?queued, hboot, hwater, hstock, hcost,
    hout.trans hidle, hcut, hplan⟩
  case queued =>
    intro hannounced hlisten
    rw [takePlantReport_line]
    exact any_isPlant_announceTest hannounced (by simpa using hlisten)
  all_goals rw [takePlantReport_plant]
  case report | timer | stale | announced => rfl
  case capacity => exact plantCapacity_eq _ _ _ hlow
  case stop => exact plantStop_eq_true_iff _ _
  case resume => exact plantStop_eq_false_iff _ _
  case noFlow => exact plantFresh_of_no_flow
  case flow => exact plantFresh_of_flow
  case announceTimer => exact startAnnounce_announceTimer _

end Sys2Proof.Machine
end

section
/-! PROOF. The queries and the cost log (R155 to R157): each command as its own test and owner, what the owner answers
from the view or takes from the log, and the obligations on QUERY-SLAB, QUERY-JOB and LOG-READ. -/

namespace Sys2Proof.Machine

/-! ### Test 4 of a command (R180) -/

/-- In CONFIG FAULT a command the state does not take is answered WRONG STATE, whatever its fields and its owner. -/
theorem gate_configFault {c : Cmd} {s : State} (hfault : s.boot.runState = .configFault)
    (hidle : s.port.outstanding = none) (hopen : outputBlocked s.port = false) (htaken : takenInFault c = false)
    (fieldsOk : Bool) (owner : State → State) : gate c fieldsOk owner s = reply c .wrongState .none s := by
  have htest : gateTest c fieldsOk s = some .wrongState := by simp [gateTest, hfault, hidle, htaken]
  simp [gate, hopen, htest]

theorem within_eq_false_iff (lo n hi : Nat) : within lo n hi = false ↔ n < lo ∨ hi < n := by
  simp only [within, Bool.and_eq_false_iff, decide_eq_false_iff_not, Nat.not_le]

/-! ### QUERY-SLAB (R157) -/

theorem exec_querySlab (id : SlabId) (s : State) :
    exec (.querySlab id) s = .next (gate .querySlab (slabIdOk id) (takeQuerySlab id) s) := rfl

theorem exec_querySlab_of_reaches {id : SlabId} {s : State} (h : Reaches .querySlab s) (hid : slabIdOk id = true) :
    exec (.querySlab id) s = .next (takeQuerySlab id s) := by
  rw [exec_querySlab, hid, gate_of_reaches h]

theorem takeQuerySlab_of_known {id : SlabId} {s : State} {r : SlabRecord} (h : s.slab id = some r) :
    takeQuerySlab id s = reply .querySlab .ok (.slab r) s := by
  simp only [takeQuerySlab, h]

theorem takeQuerySlab_of_unknown_report {id : SlabId} {s : State} (h : s.slab id = none)
    (hmode : s.cfg.unknownMode = .report) : takeQuerySlab id s = reply .querySlab .unknown .none s := by
  simp only [takeQuerySlab, h, hmode]

theorem takeQuerySlab_of_unknown_quiet {id : SlabId} {s : State} (h : s.slab id = none)
    (hmode : s.cfg.unknownMode = .quiet) : takeQuerySlab id s = reply .querySlab .ok (.slabAbsent id) s := by
  simp only [takeQuerySlab, h, hmode]

/-! ### QUERY-JOB (R157) -/

theorem exec_queryJob (job : Nat) (s : State) :
    exec (.queryJob job) s = .next (gate .queryJob (jobOk job) (takeQueryJob job) s) := rfl

theorem exec_queryJob_of_reaches {job : Nat} {s : State} (h : Reaches .queryJob s) (hjob : jobOk job = true) :
    exec (.queryJob job) s = .next (takeQueryJob job s) := by
  rw [exec_queryJob, hjob, gate_of_reaches h]

theorem takeQueryJob_of_known {job : Nat} {s : State} {e : JobEntry} (h : s.jobEntry job = some e) :
    takeQueryJob job s = reply .queryJob .ok (.job e) s := by
  simp only [takeQueryJob, h]

theorem takeQueryJob_of_unknown_report {job : Nat} {s : State} (h : s.jobEntry job = none)
    (hmode : s.cfg.unknownMode = .report) : takeQueryJob job s = reply .queryJob .unknown .none s := by
  simp only [takeQueryJob, h, hmode]

theorem takeQueryJob_of_unknown_quiet {job : Nat} {s : State} (h : s.jobEntry job = none)
    (hmode : s.cfg.unknownMode = .quiet) : takeQueryJob job s = reply .queryJob .ok .jobAbsent s := by
  simp only [takeQueryJob, h, hmode]

theorem jobOk_zero : jobOk 0 = false := (within_eq_false_iff 1 0 65535).mpr (.inl Nat.one_pos)

/-- Settles O19: the owner's answer to a known number and to an unknown one in each mode; job 0 by test 6 and CONFIG
FAULT by test 4. -/
theorem queriesAnswered : Obligations.QueriesAnswered := by
  unfold Obligations.QueriesAnswered
  intro s
  refine ⟨fun id hreach hid => ?slab, fun job hreach hjob => ?job, fun hreach => ?jobZero,
    fun hfault hidle hopen => ⟨fun id => ?slabFault, fun job => ?jobFault⟩⟩
  case slab =>
    rw [exec_querySlab_of_reaches hreach hid]
    exact ⟨fun _ hknown => congrArg _ (takeQuerySlab_of_known hknown),
      fun hnone hmode => congrArg _ (takeQuerySlab_of_unknown_report hnone hmode),
      fun hnone hmode => congrArg _ (takeQuerySlab_of_unknown_quiet hnone hmode)⟩
  case job =>
    rw [exec_queryJob_of_reaches hreach hjob]
    exact ⟨fun _ hknown => congrArg _ (takeQueryJob_of_known hknown),
      fun hnone hmode => congrArg _ (takeQueryJob_of_unknown_report hnone hmode),
      fun hnone hmode => congrArg _ (takeQueryJob_of_unknown_quiet hnone hmode)⟩
  case jobZero => rw [exec_queryJob, jobOk_zero, gate_badField hreach]
  case slabFault => rw [exec_querySlab, gate_configFault hfault hidle hopen rfl]
  case jobFault => rw [exec_queryJob, gate_configFault hfault hidle hopen rfl]

/-! ### LOG-READ (R155, R156) -/

theorem exec_logRead (count : Nat) (s : State) :
    exec (.logRead count) s = .next (gate .logRead (within 1 count 8) (takeLogRead count) s) := rfl

/-- R155, R156: the log loses its oldest records; a disarmed mark is armed by the number of those left. -/
theorem readLog_eq (count : Nat) (s : State) :
    readLog count s = { s with cost := { s.cost with
      log := s.cost.log.drop count
      armed := s.cost.armed || decide (s.cost.log.length - count < s.cfg.logThreshold) } } := by
  rw [readLog, List.length_drop]

/-- R155: the reply carries the records removed, oldest first, and the number of those left. -/
theorem takeLogRead_eq (count : Nat) (s : State) :
    takeLogRead count s = reply .logRead .ok
      (.log (s.cost.log.take count) (s.cost.log.length - count)) (readLog count s) := by
  rw [takeLogRead, ← List.length_drop]
  rfl

/-- Settles O21: what LOG-READ takes from the log and answers by R155, the mark by R156; a count out of range by test 6
and CONFIG FAULT by test 4. -/
theorem logReadRemoves : Obligations.LogReadRemoves := by
  unfold Obligations.LogReadRemoves
  intro count s
  refine ⟨fun hreach hmin hmax => ?taken, fun hreach hcount => ?range, fun hfault hidle hopen => ?fault⟩
  case taken =>
    have hok : within 1 count 8 = true := by simp [within, hmin, hmax]
    rw [exec_logRead, hok, gate_of_reaches hreach, takeLogRead_eq, readLog_eq]
  case range =>
    have hbad : within 1 count 8 = false := (within_eq_false_iff 1 count 8).mpr (hcount.imp_left Nat.lt_one_iff.mpr)
    rw [exec_logRead, hbad, gate_badField hreach]
  case fault => rw [exec_logRead, gate_configFault hfault hidle hopen rfl]

end Sys2Proof.Machine
end

section
/-! PROOF. STOCK-LIST (R187): which entries a page lists and how far it has examined the table, and the obligation. -/

namespace Sys2Proof.Machine

/-! ### What the entries of a part of the table give to a list -/

/-- R187: the matching entries of `es`, in their order, as they are listed. -/
def listing (filter : Nat) (es : List StockEntry) : List Listed :=
  (es.filter fun e => matchesFilter filter e.slab).map fun e => listed e.slab

@[simp] theorem listing_nil (filter : Nat) : listing filter [] = [] := rfl

theorem listing_cons_of_match {filter : Nat} {e : StockEntry} (h : matchesFilter filter e.slab = true)
    (es : List StockEntry) : listing filter (e :: es) = listed e.slab :: listing filter es := by
  simp [listing, h]

theorem listing_cons_of_not_match {filter : Nat} {e : StockEntry} (h : ¬ matchesFilter filter e.slab = true)
    (es : List StockEntry) : listing filter (e :: es) = listing filter es := by
  simp [listing, h]

theorem length_listing_le (filter : Nat) (es : List StockEntry) : (listing filter es).length ≤ es.length := by
  rw [listing, List.length_map]
  exact List.length_filter_le _ es

/-! ### A page -/

/-- R187: a page lists the first matching entries, as many as it has room for. -/
theorem listPage_fst (filter room pos : Nat) (es : List StockEntry) :
    (listPage filter room pos es).1 = (listing filter es).take room := by
  fun_induction listPage filter room pos es with
  | case1 => rw [listing_nil, List.take_nil]
  | case2 => rw [List.take_zero]
  | case3 pos room e es hmatch rest ih => rw [listing_cons_of_match hmatch, List.take_succ_cons, ← ih]
  | case4 pos room e es hmatch ih => rw [listing_cons_of_not_match hmatch, ih]

/-- R187: a page that reaches the end lists every match; one that stops before it is full, lists the matches among the
entries examined, and names the position behind them. -/
theorem listPage_ends_or_stops (filter room pos : Nat) (es : List StockEntry) :
    ((listPage filter room pos es).2 = 0 ∧ (listPage filter room pos es).1 = listing filter es)
    ∨ ∃ examined < es.length, (listPage filter room pos es).2 = pos + examined
      ∧ (listPage filter room pos es).1.length = room
      ∧ (listPage filter room pos es).1 = listing filter (es.take examined) := by
  fun_induction listPage filter room pos es with
  | case1 => exact .inl ⟨rfl, rfl⟩
  | case2 pos e es => exact .inr ⟨0, Nat.succ_pos _, rfl, rfl, rfl⟩
  | case3 pos room e es hmatch rest ih =>
    rw [listing_cons_of_match hmatch]
    refine ih.imp (fun ⟨hnext, hpage⟩ => ⟨hnext, congrArg _ hpage⟩) ?_
    rintro ⟨k, hk, hnext, hlen, hpage⟩
    refine ⟨k + 1, Nat.succ_lt_succ hk, hnext.trans (by omega), congrArg _ hlen, ?_⟩
    rw [List.take_succ_cons, listing_cons_of_match hmatch, ← hpage]
  | case4 pos room e es hmatch ih =>
    rw [listing_cons_of_not_match hmatch]
    refine ih.imp_right ?_
    rintro ⟨k, hk, hnext, hlen, hpage⟩
    refine ⟨k + 1, Nat.succ_lt_succ hk, by omega, hlen, ?_⟩
    rw [List.take_succ_cons, listing_cons_of_not_match hmatch, hpage]

/-- A next position of 0 says that every match is listed. -/
theorem listPage_ended {filter room start : Nat} {es : List StockEntry} {page : List Listed} (hstart : 1 ≤ start)
    (h : listPage filter room start es = (page, 0)) : page = listing filter es := by
  obtain ⟨-, hpage⟩ | ⟨k, -, hnext, -⟩ := h ▸ listPage_ends_or_stops filter room start es
  · exact hpage
  · omega

/-- A next position other than 0 lies in the table and behind the start, the page is full, and it lists the matches
between the two. -/
theorem listPage_stopped {filter room start next : Nat} {table : List StockEntry} {page : List Listed}
    (hroom : 0 < room) (hstart : 1 ≤ start)
    (h : listPage filter room start (table.drop (start - 1)) = (page, next)) (hne : next ≠ 0) :
    page.length = room ∧ start < next
    ∧ page = listing filter ((table.drop (start - 1)).take (next - start)) ∧ next ≤ table.length := by
  obtain ⟨hend, -⟩ | ⟨k, hk, rfl, hlen, hpage⟩ :=
    h ▸ listPage_ends_or_stops filter room start (table.drop (start - 1))
  · exact absurd hend hne
  · have hexamined : room ≤ k := by
      calc room = (listing filter ((table.drop (start - 1)).take k)).length := by rw [← hpage, hlen]
        _ ≤ ((table.drop (start - 1)).take k).length := length_listing_le _ _
        _ ≤ k := List.length_take_le _ _
    rw [List.length_drop] at hk
    rw [Nat.add_sub_cancel_left]
    exact ⟨hlen, by omega, hpage, by omega⟩

/-! ### The command -/

theorem exec_stockList (start filter : Nat) (s : State) :
    exec (.stockList start filter) s =
      .next (gate .stockList (stockListOk start filter) (takeStockList start filter) s) := rfl

theorem stockListOk_eq_false_iff (start filter : Nat) :
    stockListOk start filter = false ↔ start = 0 ∨ 200 < start ∨ 5 < filter := by
  rw [stockListOk, Bool.and_eq_false_iff, within_eq_false_iff, decide_eq_false_iff_not, Nat.not_le, Nat.lt_one_iff,
    or_assoc]

/-- Settles O20: a field out of range by test 6; else the page the owner makes from the entries behind the start. -/
theorem stockListPages : Obligations.StockListPages := by
  unfold Obligations.StockListPages
  intro start filter s hreach
  refine ⟨fun hfields => ?range, fun hmin hmax hfilter => ?page⟩
  case range => rw [exec_stockList, (stockListOk_eq_false_iff start filter).mpr hfields, gate_badField hreach]
  case page =>
    have hok : stockListOk start filter = true := by
      rw [← Bool.not_eq_false, stockListOk_eq_false_iff]
      omega
    intro rest hits
    rcases hlist : listPage filter pageMax start rest with ⟨page, next⟩
    have hfst : page = (hits rest).take 16 :=
      (congrArg Prod.fst hlist).symm.trans (listPage_fst filter pageMax start rest)
    refine ⟨page, next, ?taken, hfst, fun hend => listPage_ended hmin (hend ▸ hlist),
      listPage_stopped (Nat.succ_pos _) hmin hlist, fun hbeyond => ?beyond⟩
    case taken => rw [exec_stockList, hok, gate_of_reaches hreach, takeStockList, hlist]
    case beyond =>
      have hrest : rest = [] := List.drop_eq_nil_of_le (Nat.le_sub_one_of_lt hbeyond)
      rw [hrest] at hlist
      exact ⟨(congrArg Prod.fst hlist).symm, (congrArg Prod.snd hlist).symm⟩

end Sys2Proof.Machine
end

section
/-! PROOF. What every command and event keeps of the units' invariants and of the queue of waiting commands: the relation
`Keeps`, under which the changes of a station compose, and the changes of one unit that it allows. -/

namespace Sys2Proof.Machine

/-! ### The relation -/

/-- The invariants of every unit but the cut state's hold behind a change if they held before it, and the queue of
waiting commands is left as it stands. -/
structure UnitsKept (s t : State) : Prop where
  pending : t.pending = s.pending
  fits : WaterFits s → WaterFits t
  ordered : DrawsOrdered s → DrawsOrdered t
  line : LineOrdered s → LineOrdered t
  stock : StockBounded s → StockBounded t
  cost : CostBounded s → CostBounded t
  wear : WearBounded s → WearBounded t
  counters : CountersBounded s → CountersBounded t

/-- The same, and the cut state goes with segment, staging, plan and waiting mark behind the change if it did before. -/
structure Keeps (s t : State) : Prop extends UnitsKept s t where
  cut : CutConsistent s → CutConsistent t

theorem UnitsKept.trans {s t u : State} (h : UnitsKept s t) (g : UnitsKept t u) : UnitsKept s u where
  pending := g.pending.trans h.pending
  fits := g.fits ∘ h.fits
  ordered := g.ordered ∘ h.ordered
  line := g.line ∘ h.line
  stock := g.stock ∘ h.stock
  cost := g.cost ∘ h.cost
  wear := g.wear ∘ h.wear
  counters := g.counters ∘ h.counters

theorem Keeps.trans {s t u : State} (h : Keeps s t) (g : Keeps t u) : Keeps s u :=
  ⟨h.toUnitsKept.trans g.toUnitsKept, g.cut ∘ h.cut⟩

/-- What the invariants of every unit but the cut state's read of a station. -/
abbrev unitsRead (s : State) :=
  (s.pending, s.boot.shopTime, s.boot.config, s.port.portErrors,
    (s.line.queue, s.line.waiters, s.line.access, s.line.framesSent, s.line.deferrals, s.line.receiveErrors),
    s.stock.table, s.stock.seqNext, s.cost.jobs, s.cost.log, s.cut.blade.remainder, s.water.capacity, s.water.draws)

/-- What the invariant of the cut state reads. -/
abbrev cutRead (s : State) := (s.cut.state, s.cut.segment, s.cut.waiting, s.plan)

theorem UnitsKept.of_read {s t : State} (h : unitsRead t = unitsRead s) : UnitsKept s t := by
  simp only [unitsRead, Prod.mk.injEq] at h
  obtain ⟨hpending, htime, hconfig, herrors, ⟨hqueue, hwaiters, haccess, hsent, hdeferrals, hreceive⟩, htable, hseq,
    hjobs, hlog, hwear, hcapacity, hdraws⟩ := h
  have hstation : t.station = s.station := by rw [State.station, State.cfg, hconfig]; rfl
  constructor
  case pending => exact hpending
  case fits => rw [WaterFits, WaterFits, hcapacity, hdraws]; exact id
  case ordered => rw [DrawsOrdered, DrawsOrdered, hdraws, hstation]; exact id
  case line => rw [LineOrdered, LineOrdered, hqueue, hwaiters, haccess]; exact id
  case stock => rw [StockBounded, StockBounded, htable, hseq]; exact id
  case cost => rw [CostBounded, CostBounded, hjobs, hlog]; exact id
  case wear => rw [WearBounded, WearBounded, hwear]; exact id
  case counters => rw [CountersBounded, CountersBounded, htime, herrors, hsent, hdeferrals, hreceive]; exact id

theorem Keeps.of_units {s t : State} (h : UnitsKept s t) (hc : cutRead t = cutRead s) : Keeps s t := by
  simp only [cutRead, Prod.mk.injEq] at hc
  obtain ⟨hstate, hsegment, hwaiting, hplan⟩ := hc
  exact ⟨h, by rw [CutConsistent, CutConsistent, hstate, hsegment, hwaiting, hplan]; exact id⟩

/-- A change of nothing the invariants read. -/
theorem Keeps.of_read {s t : State} (h : unitsRead t = unitsRead s ∧ cutRead t = cutRead s) : Keeps s t :=
  .of_units (.of_read h.1) h.2

theorem Keeps.refl {s : State} : Keeps s s := .of_read ⟨Eq.refl _, Eq.refl _⟩

/-! ### Changes of one unit -/

/-- What the invariants read of the counters. -/
abbrev countersRead (s : State) :=
  (s.boot.shopTime, s.port.portErrors, s.line.framesSent, s.line.deferrals, s.line.receiveErrors)

section
variable {s : State}

theorem Keeps.of_line {l : Line} (h : LineOrdered s → LineOrdered { s with line := l })
    (hc : countersRead { s with line := l } = countersRead s) : Keeps s { s with line := l } := by
  simp only [countersRead, Prod.mk.injEq, true_and] at hc
  obtain ⟨hsent, hdeferrals, hreceive⟩ := hc
  refine .of_units ⟨rfl, id, id, h, id, id, id, ?_⟩ (Eq.refl _)
  rw [CountersBounded, CountersBounded, hsent, hdeferrals, hreceive]
  exact id

theorem Keeps.of_stock {st : Stock} (h : StockBounded s → StockBounded { s with stock := st }) :
    Keeps s { s with stock := st } :=
  .of_units ⟨Eq.refl _, id, id, id, h, id, id, id⟩ (Eq.refl _)

theorem Keeps.of_cost {c : Costing} (h : CostBounded s → CostBounded { s with cost := c }) :
    Keeps s { s with cost := c } :=
  .of_units ⟨Eq.refl _, id, id, id, id, h, id, id⟩ (Eq.refl _)

theorem Keeps.of_water {w : Water} (hf : WaterFits s → WaterFits { s with water := w })
    (ho : DrawsOrdered s → DrawsOrdered { s with water := w }) : Keeps s { s with water := w } :=
  .of_units ⟨Eq.refl _, hf, ho, id, id, id, id, id⟩ (Eq.refl _)

end

end Sys2Proof.Machine
end

section
/-! PROOF. The operations every unit shares keep the units' invariants: the output list, the answers, the faults, the
outgoing queue with its waiters. -/

namespace Sys2Proof.Machine

/-! ### The output list and the faults -/

theorem emit_keeps (sg : Signal) (s : State) : Keeps s (emit sg s) := .of_read (by simp)

theorem replyNow_keeps (n : Nat) (st : Status) (b : ReplyBody) (s : State) : Keeps s (replyNow n st b s) :=
  .of_read (by simp)

theorem reply_keeps (c : Cmd) (st : Status) (b : ReplyBody) (s : State) : Keeps s (reply c st b s) := .of_read (by simp)

theorem answer_keeps (c : Option Cmd) (st : Status) (b : ReplyBody) (s : State) : Keeps s (answer c st b s) :=
  .of_read (by simp)

theorem keep_keeps (c : Cmd) (s : State) : Keeps s (keep c s) := .of_read (by simp)

theorem raise_keeps (k : FaultKind) (d : Nat) (s : State) : Keeps s (raise k d s) := .of_read (by simp)

theorem joinLine_keeps (b : Bool) (s : State) : Keeps s (joinLine b s) := .of_read ⟨rfl, rfl⟩

/-! ### The outgoing queue -/

/-- The queue with its waiters and the access state, consistent by R164 to R166. -/
def QueueConsistent (l : Line) : Prop :=
  l.queue.length ≤ 12 ∧ (l.waiters ≠ [] → l.queue.length = 12) ∧ (∀ w ∈ l.waiters, w.notices ≠ [])
    ∧ (l.access = .idle ↔ l.queue = [])

theorem addWaiter_notices_ne_nil (cause : WaitCause) {es : List QEntry} (hes : es ≠ []) {ws : List Waiter}
    (hws : ∀ w ∈ ws, w.notices ≠ []) : ∀ w ∈ addWaiter cause es ws, w.notices ≠ [] := by
  induction ws with
  | nil => simpa [addWaiter] using hes
  | cons v vs ih =>
    rw [List.forall_mem_cons] at hws
    rw [addWaiter]
    split
    · exact List.forall_mem_cons.mpr ⟨by simp [hes], hws.2⟩
    · exact List.forall_mem_cons.mpr ⟨hws.1, ih hws.2⟩

theorem putNotices_consistent (cause : WaitCause) (es : List QEntry) {l : Line} (h : QueueConsistent l) :
    QueueConsistent (putNotices cause es l) := by
  obtain ⟨hlen, hfull, hnotices, hidle⟩ := h
  have hmax : queueMax = 12 := rfl
  have htake : (es.take (queueMax - l.queue.length)).length = min (queueMax - l.queue.length) es.length :=
    List.length_take
  simp only [QueueConsistent, putNotices, List.length_append, htake]
  refine ⟨by omega, ?full, ?notices, ?idle⟩
  case full =>
    split
    case isTrue => intro hw; have := hfull hw; omega
    case isFalse hrest => intro _; rw [List.drop_eq_nil_iff] at hrest; omega
  case notices =>
    split
    case isTrue => exact hnotices
    case isFalse hrest => exact addWaiter_notices_ne_nil cause hrest hnotices
  case idle =>
    split
    case isTrue hnew => simpa using hnew.2
    case isFalse hold =>
      rw [hidle]
      refine ⟨fun hq => ?_, fun hq => (List.append_eq_nil_iff.mp hq).1⟩
      by_contra hne
      exact hold ⟨hidle.mpr hq, hne⟩

theorem dropHead_consistent {l : Line} (h : QueueConsistent l) : QueueConsistent (dropHead l) := by
  obtain ⟨hlen, hfull, hnotices, -⟩ := h
  have haccess : (dropHead l).access = .idle ↔ (dropHead l).queue = [] := by
    simp only [dropHead]
    split <;> simp_all
  refine ⟨?_, ?_, ?_, haccess⟩ <;> simp only [dropHead, refill]
  all_goals
    cases hws : l.waiters with
    | nil => simp; try omega
    | cons w ws =>
      rw [hws] at hfull hnotices
      rw [List.forall_mem_cons] at hnotices
      have htwelve := hfull (List.cons_ne_nil w ws)
      cases hn : w.notices with
      | nil => exact absurd hn hnotices.1
      | cons n rest => by_cases hrest : rest = [] <;> simp <;> grind

/-- A head taken out and put back changed, with the line unit not idle, leaves the queue consistent. -/
theorem replaceHead_consistent {l : Line} (h : QueueConsistent l) {e e' : QEntry} {rest : List QEntry}
    (hq : l.queue = e :: rest) {a : Access} (ha : a ≠ .idle) :
    QueueConsistent { l with queue := e' :: rest, access := a } := by
  obtain ⟨hlen, hfull, hnotices, -⟩ := h
  rw [hq] at hlen hfull
  exact ⟨hlen, hfull, hnotices, by simp [ha]⟩

theorem queueNotices_keeps (cause : WaitCause) (es : List QEntry) (s : State) :
    Keeps s (queueNotices cause es s) := by
  unfold queueNotices
  split
  · exact .refl
  · exact .of_line (putNotices_consistent cause es) (by simp)

theorem leaveQueue_keeps (s : State) : Keeps s (leaveQueue s) := .of_line dropHead_consistent (by simp)

theorem queueCommand_keeps (c : Cmd) (n : Notice) (s : State) : Keeps s (queueCommand c n s) := by
  unfold queueCommand
  split
  · exact reply_keeps ..
  split
  · exact reply_keeps ..
  · exact .trans (.of_line (putNotices_consistent _ _) (by simp)) (keep_keeps ..)

/-! ### The own DRAW -/

@[simp] theorem absorbFirst_length (p : DrawPurpose) (c : Option Cmd) (es : List QEntry) :
    (absorbFirst p c es).length = es.length := by
  induction es with
  | nil => rfl
  | cons e es ih => rw [absorbFirst]; split <;> simp [ih]

@[simp] theorem absorbFirst_eq_nil (p : DrawPurpose) (c : Option Cmd) (es : List QEntry) :
    absorbFirst p c es = [] ↔ es = [] := by
  rw [← List.length_eq_zero_iff, absorbFirst_length, List.length_eq_zero_iff]

theorem absorbDraw_consistent (p : DrawPurpose) (c : Option Cmd) {l : Line} (h : QueueConsistent l) :
    QueueConsistent (absorbDraw p c l) := by
  obtain ⟨hlen, hfull, hnotices, hidle⟩ := h
  unfold absorbDraw
  split
  · exact ⟨by simpa using hlen, by simpa using hfull, hnotices, by simpa using hidle⟩
  · refine ⟨hlen, by simpa using hfull, fun w hw => ?_, hidle⟩
    obtain ⟨v, hv, rfl⟩ := List.mem_map.mp hw
    have := hnotices v hv
    split <;> simpa

theorem queueDraw_keeps (p : DrawPurpose) (c : Option Cmd) (s : State) : Keeps s (queueDraw p c s) := by
  unfold queueDraw
  split
  · exact .refl
  split
  · exact .of_line (absorbDraw_consistent p c) (by unfold absorbDraw; split <;> rfl)
  · exact .of_line (putNotices_consistent _ _) (by simp)

theorem reworkRequest_keeps (c : Option Cmd) (s : State) : Keeps s (reworkRequest c s) := by
  have hrequest : Keeps s { s with water := { s.water with ownRequest := workRequest s } } := .of_read ⟨rfl, rfl⟩
  unfold reworkRequest
  dsimp only
  split
  · exact hrequest.trans (queueDraw_keeps ..)
  · exact hrequest

end Sys2Proof.Machine
end

section
/-! PROOF. The operations of the cut unit and the water unit keep the units' invariants; the fit rule makes the grants
fit. -/

namespace Sys2Proof.Machine

/-! ### The cut state -/

theorem evaluateMark_keeps (s : State) : Keeps s (evaluateMark s) := by
  unfold evaluateMark
  split
  · refine .trans ?_ (emit_keeps ..)
    exact ⟨.of_read rfl, fun ⟨hsegment, hstaging, _, hplan⟩ => ⟨hsegment, hstaging, nofun, hplan⟩⟩
  · exact .refl

/-- The mark may be set where it stands: in PLANNED and SUSPENDED. -/
theorem setMark_keeps {s : State} (h : s.cut.state = .planned ∨ s.cut.state = .suspended) : Keeps s (setMark s) := by
  refine .trans ?_ (evaluateMark_keeps _)
  exact ⟨.of_read rfl, fun ⟨hsegment, hstaging, _, hplan⟩ => ⟨hsegment, hstaging, fun _ => h, hplan⟩⟩

theorem toCut_units (c : CutState) (s : State) : UnitsKept s (toCut c s) := .of_read rfl

/-- A change of the cut state makes the unit consistent, where the segment of CUTTING and the staging of STAGING stand. -/
theorem toCut_consistent (c : CutState) (s : State) (hsegment : c = .cutting → s.cut.segment.isSome = true)
    (hstaging : c = .staging → s.plan.staging.isSome = true) : CutConsistent (toCut c s) := by
  unfold CutConsistent toCut
  cases c <;> simp_all [markStands, planStands]

theorem toEmpty_keeps (s : State) : Keeps s (toEmpty s) :=
  ⟨.of_read rfl, fun _ => by simp [CutConsistent, toEmpty]⟩

theorem stopWindow_keeps (s : State) : Keeps s (stopWindow s) := .of_read ⟨rfl, rfl⟩

/-! ### The draw table -/

theorem grantSum_cons (d : DrawEntry) (ds : List DrawEntry) : grantSum (d :: ds) = d.granted + grantSum ds := rfl

theorem lockedSum_cons (d : DrawEntry) (ds : List DrawEntry) :
    lockedSum (d :: ds) = (if d.locked = true then d.granted else 0) + lockedSum ds := by
  unfold lockedSum
  rw [List.filter_cons]
  split <;> simp [grantSum_cons]

theorem unlockedSum_cons (d : DrawEntry) (ds : List DrawEntry) :
    unlockedSum (d :: ds) = (if d.locked = true then 0 else d.granted) + unlockedSum ds := by
  unfold unlockedSum
  rw [List.filter_cons]
  cases d.locked <;> simp [grantSum_cons]

@[simp] theorem takeExcess_lockedSum (ds : List DrawEntry) (x : Nat) : lockedSum (takeExcess ds x).1 = lockedSum ds := by
  induction ds with
  | nil => rfl
  | cons d ds ih => rw [takeExcess]; split <;> simp [lockedSum_cons, *]

/-- R111: the unlocked entries give the excess, as far as their grants go. -/
theorem takeExcess_unlockedSum (ds : List DrawEntry) (x : Nat) :
    unlockedSum (takeExcess ds x).1 = unlockedSum ds - x ∧ (takeExcess ds x).2 = x - unlockedSum ds := by
  induction ds with
  | nil => simp [takeExcess, unlockedSum, grantSum]
  | cons d ds ih =>
    obtain ⟨hsum, hrest⟩ := ih
    rw [takeExcess]
    split
    · simp_all [unlockedSum_cons]
    · simp_all [unlockedSum_cons]
      omega

theorem takeExcess_granted_le (ds : List DrawEntry) (x : Nat) (h : ∀ d ∈ ds, d.granted ≤ d.requested) :
    ∀ d ∈ (takeExcess ds x).1, d.granted ≤ d.requested := by
  induction ds with
  | nil => exact h
  | cons d ds ih =>
    rw [List.forall_mem_cons] at h
    rw [takeExcess]
    split <;> refine List.forall_mem_cons.mpr ⟨?_, ih h.2⟩
    · exact h.1
    · exact (Nat.sub_le ..).trans h.1

/-- R111: behind the fit rule the unlocked grants fit in the room the locked ones leave. -/
theorem fitTable_fits (capacity : Nat) (ds : List DrawEntry) :
    unlockedSum (fitTable capacity ds) ≤ capacity - lockedSum (fitTable capacity ds) := by
  rw [fitTable, takeExcess_lockedSum, (takeExcess_unlockedSum _ _).1]
  omega

theorem mem_putDraw {d x : DrawEntry} {ds : List DrawEntry} (h : x ∈ putDraw d ds) : x = d ∨ x ∈ ds := by
  induction ds with
  | nil => simpa [putDraw] using h
  | cons e es ih => rw [putDraw] at h; split at h <;> grind

/-- R106: an entry put in its place leaves the table in ascending order. -/
theorem putDraw_sorted (d : DrawEntry) {ds : List DrawEntry}
    (h : ds.Pairwise fun a b => a.station < b.station) :
    (putDraw d ds).Pairwise fun a b => a.station < b.station := by
  induction ds with
  | nil => simp [putDraw]
  | cons e es ih =>
    obtain ⟨hhead, htail⟩ := List.pairwise_cons.mp h
    rw [putDraw]
    split
    case isTrue heq => exact List.pairwise_cons.mpr ⟨fun x hx => heq ▸ hhead x hx, htail⟩
    case isFalse hne =>
      split
      case isTrue hlt =>
        refine List.pairwise_cons.mpr ⟨fun x hx => ?_, h⟩
        rcases List.mem_cons.mp hx with rfl | hx
        · exact hlt
        · exact hlt.trans (hhead x hx)
      case isFalse hge =>
        refine List.pairwise_cons.mpr ⟨fun x hx => ?_, ih htail⟩
        rcases mem_putDraw hx with rfl | hx
        · omega
        · exact hhead x hx

/-- The stations of the table, which the fit rule and the passing of time leave as they are, decide its order. -/
theorem drawsOrdered_iff_stations (s : State) :
    DrawsOrdered s ↔ (s.water.draws.map (·.station)).Pairwise (· < ·) ∧ s.station ∈ s.water.draws.map (·.station) := by
  simp [DrawsOrdered, List.pairwise_map]

theorem putDraw_stations (d : DrawEntry) (ds : List DrawEntry) (n : Nat) (h : n ∈ ds.map (·.station)) :
    n ∈ (putDraw d ds).map (·.station) := by
  induction ds with
  | nil => cases h
  | cons e es ih => rw [putDraw]; split <;> grind

theorem fit_keeps (s : State) : Keeps s (fit s) := by
  refine .of_water (fun h => ⟨fitTable_fits _ _, takeExcess_granted_le _ _ h.2⟩) fun h => ?_
  rw [drawsOrdered_iff_stations] at h ⊢
  rwa [show ((fitTable s.water.capacity s.water.draws).map (·.station)) = s.water.draws.map (·.station) from
    fitTable_stations ..]

/-- R111: with the fit rule run behind it, a change of the water unit may leave more granted than fits. -/
theorem fit_keeps_of_granted {s : State} {w : Water}
    (hg : (∀ d ∈ s.water.draws, d.granted ≤ d.requested) → ∀ d ∈ w.draws, d.granted ≤ d.requested)
    (ho : DrawsOrdered s → DrawsOrdered { s with water := w }) : Keeps s (fit { s with water := w }) :=
  .of_water (fun h => ⟨fitTable_fits _ _, takeExcess_granted_le _ _ (hg h.2)⟩)
    fun h => (fit_keeps { s with water := w }).ordered (ho h)

/-! ### The follow-ons -/

theorem evaluateOverdraw_keeps (n : Nat) (s : State) : Keeps s (evaluateOverdraw n s) := .of_read (by simp)

theorem signalWater_keeps (n : Nat) (s : State) : Keeps s (signalWater n s) := .of_read (by simp)

theorem signalHalt_keeps (b : Bool) (s : State) : Keeps s (signalHalt b s) := .of_read (by simp)

theorem promptCheck_keeps (b : Bool) (s : State) : Keeps s (promptCheck b s) := by
  unfold promptCheck
  split
  · exact queueDraw_keeps ..
  · exact .refl

theorem followOn_keeps (b : State) (n : Nat) (freed override : Bool) (s : State) :
    Keeps s (followOn b n freed override s) := by
  have hfirst := (evaluateOverdraw_keeps n s).trans (signalWater_keeps b.ownGrant _)
  unfold followOn
  refine .trans ?_ (promptCheck_keeps ..)
  refine .trans ?_ (signalHalt_keeps ..)
  split
  · exact hfirst.trans (evaluateMark_keeps _)
  · exact hfirst

/-! ### The water notices -/

theorem applyDraw_keeps (sender request : Nat) (lock : Bool) (grant : Nat) (s : State) :
    Keeps s (applyDraw sender request lock grant s) := by
  unfold applyDraw
  refine .trans ?_ (followOn_keeps ..)
  refine fit_keeps_of_granted (fun h d hd => ?granted) fun h => ?ordered
  case granted =>
    rcases mem_putDraw hd with rfl | hd
    · unfold drawnEntry openGrant; split <;> simp
    · exact h d hd
  case ordered =>
    obtain ⟨hsorted, hown⟩ := h
    refine ⟨putDraw_sorted _ hsorted, ?_⟩
    exact List.mem_map.mp (putDraw_stations _ _ _ (List.mem_map.mpr hown))

theorem applyPlant_keeps (sender capacity fresh : Nat) (stop stale : Bool) (s : State) :
    Keeps s (applyPlant sender capacity fresh stop stale s) := by
  unfold applyPlant
  refine .trans ?_ (followOn_keeps ..)
  exact fit_keeps_of_granted id id

theorem applyOverride_keeps (c : Option Cmd) (s : State) : Keeps s (applyOverride c s) := by
  have hstop : Keeps s { s with water := { s.water with stop := false } } := .of_read ⟨rfl, rfl⟩
  exact (hstop.trans (followOn_keeps s _ _ _ _)).trans (answer_keeps ..)

theorem lockedSum_filter_le (p : DrawEntry → Bool) (ds : List DrawEntry) :
    lockedSum (ds.filter p) ≤ lockedSum ds ∧ unlockedSum (ds.filter p) ≤ unlockedSum ds := by
  induction ds with
  | nil => exact ⟨le_refl _, le_refl _⟩
  | cons d ds ih =>
    rw [List.filter_cons]
    split <;> simp only [lockedSum_cons, unlockedSum_cons] <;> omega

theorem removeDraw_keeps (n : Nat) (s : State) : Keeps s (removeDraw n s) := by
  unfold removeDraw
  split
  · exact .refl
  case isFalse hn =>
    refine .trans ?_ (followOn_keeps ..)
    refine .of_water (fun ⟨hsum, hgrant⟩ => ⟨?fits, fun d hd => ?grant⟩) fun ⟨hsorted, d, hd, hown⟩ =>
      ⟨hsorted.filter _, d, List.mem_filter.mpr ⟨hd, ?own⟩, hown⟩
    case fits =>
      have := lockedSum_filter_le (fun d => !decide (d.station = n)) s.water.draws
      dsimp only
      omega
    case grant => exact hgrant d (List.mem_filter.mp hd).1
    case own => simpa [hown] using Ne.symm hn

theorem setSilent_keeps (s : State) : Keeps s { s with water := { s.water with silent := true } } :=
  .of_read ⟨rfl, rfl⟩

theorem plantSilent_keeps (s : State) : Keeps s (plantSilent s) := by
  unfold plantSilent
  refine .trans ?_ (raise_keeps ..)
  refine .trans ?_ (setSilent_keeps _)
  refine .trans ?_ (followOn_keeps ..)
  exact fit_keeps_of_granted id id

end Sys2Proof.Machine
end

section
/-! PROOF. The operations of the costing unit and the stock unit keep the units' invariants. -/

namespace Sys2Proof.Machine

/-! ### The job table and the log -/

theorem findJob_eq_none_iff (jobs : List JobEntry) (j : Nat) : findJob jobs j = none ↔ j ∉ jobs.map (·.job) := by
  simp [findJob]

/-- R5, R143: a new entry behind the others, or in place of the first that may go, keeps a table in its bounds. -/
theorem admit_bounded {α β : Type} (goes : α → Bool) (key : α → β) {l u : List α} {e : α} {n : Nat}
    (h : (if l.length < n then some (l ++ [e])
      else if l.any goes = true then some (l.eraseP goes ++ [e]) else none) = some u)
    (hnew : key e ∉ l.map key) (hn : (l.map key).Nodup) (hlen : l.length ≤ n) :
    u.length ≤ n ∧ (u.map key).Nodup := by
  have hsnoc : ∀ k : List α, k.Sublist l → ((k ++ [e]).map key).Nodup := by
    intro k hk
    rw [List.map_append, List.map_singleton, ← List.concat_eq_append, List.nodup_concat]
    exact ⟨fun hmem => hnew (List.Sublist.subset (hk.map key) hmem), hn.sublist (hk.map key)⟩
  split at h
  case isTrue hroom =>
    obtain rfl := Option.some.inj h
    exact ⟨by rwa [List.length_append, List.length_singleton], hsnoc _ (.refl _)⟩
  split at h
  case isFalse => cases h
  case isTrue hgoes =>
    obtain rfl := Option.some.inj h
    obtain ⟨x, hx, hp⟩ := List.any_eq_true.mp hgoes
    have herase := List.length_eraseP_of_mem (p := goes) hx hp
    have hpos := List.length_pos_of_mem hx
    exact ⟨by rw [List.length_append, herase, List.length_singleton]; omega, hsnoc _ List.eraseP_sublist⟩

theorem createJob_keeps {j : Nat} {st : JobState} {s : State} (h : s.jobEntry j = none) :
    Keeps s (createJob j st s) := by
  unfold createJob
  split
  case h_1 js hjs =>
    refine .of_cost fun ⟨hlen, hn, hlog⟩ => ?_
    obtain ⟨hlen', hn'⟩ := admit_bounded _ (·.job) hjs ((findJob_eq_none_iff _ _).mp h) hn hlen
    exact ⟨hlen', hn', hlog⟩
  case h_2 => exact raise_keeps ..

theorem ensureJob_keeps (j : Nat) (s : State) : Keeps s (ensureJob j s) := by
  unfold ensureJob
  split
  · exact .refl
  · exact createJob_keeps ‹_›

/-- An entry changed in its place keeps the table's length and its jobs. -/
theorem mapJob_bounded (j : Nat) {f : JobEntry → JobEntry} (hf : ∀ e, (f e).job = e.job) (jobs : List JobEntry) :
    (mapJob j f jobs).length = jobs.length ∧ (mapJob j f jobs).map (·.job) = jobs.map (·.job) := by
  refine ⟨List.length_map .., ?_⟩
  rw [mapJob, List.map_map]
  refine List.map_congr_left fun e _ => ?_
  dsimp only [Function.comp]
  split
  · exact hf e
  · rfl

theorem mapJob_keeps (j : Nat) {f : JobEntry → JobEntry} (hf : ∀ e, (f e).job = e.job) (s : State) :
    Keeps s { s with cost := { s.cost with jobs := mapJob j f s.cost.jobs } } :=
  .of_cost fun ⟨hlen, hn, hlog⟩ => by
    obtain ⟨hlength, hjobs⟩ := mapJob_bounded j hf s.cost.jobs
    exact ⟨hlength.trans_le hlen, hjobs.symm ▸ hn, hlog⟩

@[simp] theorem chargeEntry_job (t : Tally) (now : Nat) (e : JobEntry) : (chargeEntry t now e).job = e.job := by
  unfold chargeEntry; split <;> rfl

@[simp] theorem setJobState_job (st : JobState) (now : Nat) (e : JobEntry) : (setJobState st now e).job = e.job := by
  unfold setJobState; split <;> rfl

theorem addCharge_keeps (t : Tally) (s : State) : Keeps s (addCharge t s) :=
  (ensureJob_keeps t.job s).trans (mapJob_keeps _ (chargeEntry_job t _) _)

theorem highWaterAdded_keeps (s : State) : Keeps s (highWaterAdded s) := .of_read (by simp)

theorem offerLog_keeps (r : LogRecord) (s : State) : Keeps s (offerLog r s) := by
  unfold offerLog
  split
  case isTrue hroom =>
    refine .trans ?_ (highWaterAdded_keeps _)
    refine .of_cost fun ⟨hlen, hn, _⟩ => ⟨hlen, hn, ?_⟩
    simpa [logMax, Nat.lt_succ_iff] using hroom
  case isFalse =>
    refine .trans ?_ (raise_keeps ..)
    exact mapJob_keeps r.job (f := fun e => { e with gap := true }) (fun _ => rfl) s

theorem ownCharge_keeps (t : Tally) (k : LogKind) (id : SlabId) (step : Nat) (s : State) :
    Keeps s (ownCharge t k id step s) :=
  (addCharge_keeps t s).trans (offerLog_keeps ..)

theorem applyJobState_keeps (j : Nat) (st : JobState) (s : State) : Keeps s (applyJobState j st s) := by
  unfold applyJobState
  split
  · exact mapJob_keeps _ (setJobState_job st _) _
  · exact createJob_keeps ‹_›

theorem applyJobOpen_keeps (j : Nat) (c : Option Cmd) (s : State) : Keeps s (applyJobOpen j c s) := by
  unfold applyJobOpen
  dsimp only
  split <;> exact (applyJobState_keeps ..).trans (answer_keeps ..)

theorem applyJobClose_keeps (j : Nat) (c : Option Cmd) (s : State) : Keeps s (applyJobClose j c s) :=
  (applyJobState_keeps ..).trans (answer_keeps ..)

theorem applyTally_keeps (sender : Nat) (t : Tally) (s : State) : Keeps s (applyTally sender t s) := by
  unfold applyTally
  split
  · exact .refl
  · exact addCharge_keeps t s

theorem readLog_keeps (count : Nat) (s : State) : Keeps s (readLog count s) :=
  .of_cost fun ⟨hlen, hn, hlog⟩ => ⟨hlen, hn, by simp only [List.length_drop]; omega⟩

/-! ### The stock table -/

theorem slab_eq_none_iff (s : State) (id : SlabId) : s.slab id = none ↔ id ∉ s.stock.table.map (·.slab.id) := by
  simp [State.slab, findSlab]

theorem recordNew_keeps {r : SlabRecord} {s : State} (h : s.slab r.id = none) : Keeps s (recordNew r s) := by
  unfold recordNew
  split
  case h_1 u hu =>
    refine .of_stock fun ⟨hlen, hn, hlow, hhigh⟩ => ?_
    obtain ⟨hlen', hn'⟩ := admit_bounded _ (·.slab.id) hu ((slab_eq_none_iff _ _).mp h) hn hlen
    exact ⟨hlen', hn', hlow, hhigh⟩
  case h_2 => exact raise_keeps ..

/-- Entries changed in their places, each keeping its slab, leave the stock table in its bounds. -/
theorem mapStock_keeps {f : StockEntry → StockEntry} (hf : ∀ e, (f e).slab.id = e.slab.id) (s : State) :
    Keeps s { s with stock := { s.stock with table := s.stock.table.map f } } := by
  refine .of_stock fun ⟨hlen, hn, hseq⟩ => ⟨by simpa using hlen, ?_, hseq⟩
  simpa [List.map_map, Function.comp_def, hf] using hn

theorem setSlab_keeps (e : StockEntry) (s : State) :
    Keeps s { s with stock := { s.stock with table := setSlab e s.stock.table } } :=
  mapStock_keeps (fun x => by split <;> simp_all) s

theorem writeSlab_keeps (r : SlabRecord) (s : State) : Keeps s (writeSlab r s) := setSlab_keeps ..

@[simp] theorem adoptable_id (s : State) (r : SlabRecord) : (adoptable s r).id = r.id := by
  unfold adoptable; split <;> rfl

theorem endHold_keeps (id : SlabId) (s : State) : Keeps s (endHold id s) := by
  have hended := ((emit_keeps (.preempted id) s).trans (stopWindow_keeps _)).trans (toEmpty_keeps _)
  unfold endHold
  dsimp only
  split
  · exact hended.trans (queueDraw_keeps ..)
  · exact hended

theorem adopt_keeps (r : SlabRecord) (s : State) : Keeps s (adopt r s) := by
  have hrecorded : Keeps s (match s.slab r.id with
      | some _ => writeSlab (adoptable s r) s
      | none => recordNew (adoptable s r) s) := by
    split
    · exact writeSlab_keeps ..
    · exact recordNew_keeps (by rwa [adoptable_id])
  unfold adopt
  dsimp only
  split
  · exact hrecorded.trans (endHold_keeps ..)
  · exact hrecorded

theorem applyPlain_keeps (r : SlabRecord) (s : State) : Keeps s (applyPlain r s) := by
  unfold applyPlain
  split
  · exact adopt_keeps ..
  split
  · exact adopt_keeps ..
  · exact .refl

end Sys2Proof.Machine
end

section
/-! PROOF. The application of a notice, the completion of a plan and the line unit's own events keep the units'
invariants. -/

namespace Sys2Proof.Machine

/-! ### Stock notices -/

/-- Beside the segment of CUTTING and the staging of STAGING, the cut state may become any. -/
theorem toCut_keeps {c : CutState} (hc : c ≠ .cutting) (hs : c ≠ .staging) (s : State) : Keeps s (toCut c s) :=
  ⟨toCut_units c s, fun _ => toCut_consistent c s (absurd · hc) (absurd · hs)⟩

theorem claimWon_keeps (r : SlabRecord) (c : Option Cmd) (s : State) : Keeps s (claimWon r c s) := by
  unfold claimWon
  refine .trans ?_ (ensureJob_keeps ..)
  refine .trans ?_ (toCut_keeps (by decide) (by decide) _)
  exact (answer_keeps c .ok .none s).trans (.of_read ⟨rfl, rfl⟩)

theorem claimEnded_keeps (sg : Signal) (s : State) : Keeps s (claimEnded sg s) :=
  ((emit_keeps sg s).trans (stopWindow_keeps _)).trans (toEmpty_keeps _)

theorem clearPlan_keeps (s : State) : Keeps s { s with plan := { s.plan with plan := none } } :=
  ⟨.of_read rfl, fun ⟨hsegment, hstaging, hwaiting, _⟩ => ⟨hsegment, hstaging, hwaiting, nofun⟩⟩

theorem stockEffects_keeps (k : StockKind) (sender : Nat) (r before : SlabRecord) (c : Option Cmd) (s : State) :
    Keeps s (stockEffects k sender r before c s) := by
  have hlapse : Keeps s (toEmpty (stopWindow s)) := (stopWindow_keeps s).trans (toEmpty_keeps _)
  unfold stockEffects
  dsimp only
  split
  case h_1 =>
    split
    · exact claimWon_keeps ..
    split
    · exact claimEnded_keeps ..
    · exact .refl
  case h_2 =>
    split
    · exact hlapse
    · exact .refl
  case h_3 =>
    split
    · exact hlapse.trans (answer_keeps ..)
    · exact .refl
  case h_4 =>
    split
    · exact (toEmpty_keeps s).trans (answer_keeps ..)
    · exact .refl
  case h_5 =>
    split
    · exact claimEnded_keeps ..
    · exact .refl
  case h_6 =>
    split
    · exact (claimEnded_keeps ..).trans (answer_keeps ..)
    · exact answer_keeps ..
  case h_7 => exact .refl
  case h_8 =>
    split
    · exact ((stopWindow_keeps s).trans (toCut_keeps (by decide) (by decide) _)).trans (answer_keeps ..)
    · exact .refl
  case h_9 =>
    split
    · exact clearPlan_keeps s
    · exact .refl
  case h_10 => exact answer_keeps ..

theorem applyChecked_keeps (k : StockKind) (sender pre : Nat) (r : SlabRecord) (c : Option Cmd) (s : State) :
    Keeps s (applyChecked k sender pre r c s) := by
  have hadopted : Keeps s (answer c .lost .none (adopt r s)) := (adopt_keeps r s).trans (answer_keeps ..)
  unfold applyChecked
  split
  · exact hadopted
  split
  · split
    · exact (writeSlab_keeps r s).trans (stockEffects_keeps ..)
    · exact hadopted
  split
  · exact hadopted
  · exact answer_keeps ..

theorem applyYardIn_keeps (r : SlabRecord) (c : Option Cmd) (s : State) : Keeps s (applyYardIn r c s) := by
  unfold applyYardIn
  dsimp only
  split <;> exact (applyPlain_keeps r s).trans (answer_keeps ..)

/-- Changes one after another keep what each of them keeps. -/
theorem foldl_keeps_units {α : Type} {f : State → α → State} (h : ∀ s a, Keeps s (f s a)) (l : List α) (s : State) :
    Keeps s (l.foldl f s) := by
  induction l generalizing s with
  | nil => exact .refl
  | cons a l ih => exact (h s a).trans (ih _)

theorem applySplitRecord_keeps (sender pre : Nat) (s : State) (r : SlabRecord) :
    Keeps s (applySplitRecord sender pre s r) := by
  unfold applySplitRecord
  split
  · exact applyChecked_keeps ..
  · exact applyPlain_keeps ..

theorem applySplit_keeps (sender pre : Nat) (rs : List SlabRecord) (s : State) :
    Keeps s (applySplit sender pre rs s) := foldl_keeps_units (applySplitRecord_keeps sender pre) rs s

theorem dropPlan_keeps (rs : List SlabRecord) (s : State) : Keeps s (dropPlan rs s) := by
  unfold dropPlan
  split
  · exact clearPlan_keeps s
  · exact .refl

theorem setSplitLeft_keeps (n : Nat) (s : State) : Keeps s { s with cut := { s.cut with splitLeft := n } } :=
  .of_read ⟨rfl, rfl⟩

theorem ownSplit_keeps (pre : Nat) (rs : List SlabRecord) (s : State) : Keeps s (ownSplit pre rs s) := by
  have happlied := ((applySplit_keeps s.station pre rs s).trans (dropPlan_keeps rs _)).trans
    (setSplitLeft_keeps ((dropPlan rs (applySplit s.station pre rs s)).cut.splitLeft - 1) _)
  unfold ownSplit
  dsimp only
  split
  · exact happlied.trans (toEmpty_keeps _)
  · exact happlied

theorem applyStockState_keeps (rs : List SlabRecord) (s : State) : Keeps s (applyStockState rs s) :=
  foldl_keeps_units (fun s r => applyPlain_keeps r s) rs s

@[simp] theorem restartEntry_id (sender : Nat) (e : StockEntry) : (restartEntry sender e).slab.id = e.slab.id := by
  unfold restartEntry; split <;> rfl

theorem restartStock_keeps (sender : Nat) (s : State) : Keeps s (restartStock sender s) := by
  unfold restartStock
  split
  · exact .refl
  · exact mapStock_keeps (restartEntry_id sender) s

theorem applyStockAsk_keeps (sender : Nat) (s : State) : Keeps s (applyStockAsk sender s) := by
  unfold applyStockAsk
  split
  · exact .refl
  · refine .trans ?_ (queueNotices_keeps ..)
    exact .of_read ⟨rfl, rfl⟩

/-! ### The claim window and the orphan watches -/

theorem lapse_keeps (s : State) : Keeps s (lapse s) := by
  unfold lapse
  split
  · exact .refl
  split
  · exact (emit_keeps ..).trans (queueNotices_keeps ..)
  · exact .refl

theorem windowExpired_keeps (s : State) : Keeps s (windowExpired s) := by
  have hstopped : Keeps s { s with stock := { s.stock with window := none } } := .of_read ⟨rfl, rfl⟩
  unfold windowExpired
  dsimp only
  split
  · exact hstopped
  split
  · split
    · exact .of_read ⟨rfl, rfl⟩
    · exact hstopped.trans (lapse_keeps _)
  · exact hstopped

theorem releaseExpiry_keeps (e : QEntry) (s : State) : Keeps s (releaseExpiry e s) := by
  unfold releaseExpiry
  split
  · exact .refl
  split
  · refine .trans ?_ (lapse_keeps _)
    exact .of_read ⟨rfl, rfl⟩
  · exact .refl

theorem orphanExpired_keeps (id : SlabId) (s : State) : Keeps s (orphanExpired id s) := by
  unfold orphanExpired
  split
  · exact .refl
  split
  · exact .refl
  · exact (setSlab_keeps _ s).trans (queueNotices_keeps ..)

/-! ### Segments and the completion of a plan -/

/-- A charged segment wears the blade and leaves its remainder below 10,000,000 (R71, R89). -/
theorem chargeSegment_units (p : Plan) (seg : Segment) (length : Nat) (s : State) :
    UnitsKept s (chargeSegment p seg length s) := by
  unfold chargeSegment
  refine .trans ?_ (ownCharge_keeps ..).toUnitsKept
  exact ⟨rfl, id, id, id, id, id, fun _ => Nat.mod_lt _ (by decide), id⟩

theorem closeSegment_units (length : Nat) (s : State) : UnitsKept s (closeSegment length s) := by
  unfold closeSegment
  split
  · split
    · exact .of_read rfl
    · exact chargeSegment_units ..
  · exact .of_read rfl

theorem chargePieces_keeps (id : SlabId) (os : List Outcome) (s : State) : Keeps s (chargePieces id os s) := by
  refine foldl_keeps_units (fun s o => ?_) os s
  split
  · exact ownCharge_keeps ..
  · exact .refl

theorem chargeSplit_keeps (p : Plan) (w : SplitWork) (s : State) : Keeps s (chargeSplit p w s) := by
  unfold chargeSplit
  dsimp only
  split
  · exact (chargePieces_keeps ..).trans (ownCharge_keeps ..)
  · exact chargePieces_keeps ..

theorem writeSplit_keeps (pre : Nat) (fs : List (List SlabRecord)) (s : State) : Keeps s (writeSplit pre fs s) :=
  foldl_keeps_units (fun s rs => ownSplit_keeps pre rs s) fs s

/-- R53: the ids the remnants take are among those the counter has left. -/
theorem keptRegions_length_le (s : State) (p : Plan) : (keptRegions s p).length ≤ 65536 - s.stock.seqNext :=
  (List.length_take ..).trans_le (Nat.min_le_left ..)

theorem issueIds_units (s : State) (p q : Plan) : UnitsKept s { s with
    stock := { s.stock with seqNext := s.stock.seqNext + (keptRegions s p).length }
    plan := { s.plan with plan := some q } } := by
  refine ⟨rfl, id, id, id, fun ⟨hlen, hn, hlow, hhigh⟩ => ⟨hlen, hn, ?_, ?_⟩, id, id, id⟩
  all_goals
    have := keptRegions_length_le s p
    dsimp only
    omega

/-- A completed plan leaves the cut state in SPLITTING, or EMPTY, whatever it was. -/
theorem complete_keeps (p : Plan) (s t : State) (h : UnitsKept s t) : Keeps s (complete p t) := by
  unfold complete
  split
  · exact ⟨h.trans (toEmpty_keeps t).toUnitsKept, fun _ => by simp [CutConsistent, toEmpty]⟩
  case h_2 parent _ =>
    dsimp only
    set w := splitValue parent.value (parent.length * parent.width) (outcomesOf t p)
    have hcharged : UnitsKept s (chargeSplit p w { t with
        stock := { t.stock with seqNext := t.stock.seqNext + (keptRegions t p).length }
        plan := { t.plan with plan := some { p with split := some w } } }) :=
      (h.trans (issueIds_units t p _)).trans (chargeSplit_keeps p w _).toUnitsKept
    set s1 := chargeSplit p w _
    have hunlocked : UnitsKept s (if midStep t.cut.state = true then queueDraw .unlock none s1 else s1) := by
      split
      · exact hcharged.trans (queueDraw_keeps ..).toUnitsKept
      · exact hcharged
    set s2 := if midStep t.cut.state = true then queueDraw .unlock none s1 else s1
    have hsplitting (n : Nat) :
        Keeps s (toCut .splitting { s2 with cut := { s2.cut with segment := none, splitLeft := n } }) :=
      ⟨hunlocked.trans (.of_read rfl), fun _ => toCut_consistent _ _ nofun nofun⟩
    split
    · exact (hsplitting _).trans (writeSplit_keeps ..)
    · exact (hsplitting _).trans (queueNotices_keeps ..)

/-! ### The plant's notices -/

theorem queuePlant_keeps (s : State) : Keeps s (queuePlant s) := by
  unfold queuePlant
  split
  · exact .refl
  · exact queueNotices_keeps ..

theorem announceTest_keeps (s : State) : Keeps s (announceTest s) := by
  unfold announceTest
  split
  · exact queuePlant_keeps s
  · exact .refl

theorem reportsStale_keeps (s : State) : Keeps s (reportsStale s) := by
  unfold reportsStale
  refine .trans ?_ (announceTest_keeps _)
  refine .trans ?_ (raise_keeps ..)
  exact .of_read ⟨rfl, rfl⟩

theorem announceExpired_keeps (s : State) : Keeps s (announceExpired s) := by
  unfold announceExpired
  refine .trans ?_ (queuePlant_keeps _)
  exact .of_read ⟨rfl, rfl⟩

end Sys2Proof.Machine
end

section
/-! PROOF. The line unit's events, the start-up and the passing of time keep the units' invariants. -/

namespace Sys2Proof.Machine

/-! ### Opening a segment -/

/-- R58, R60: the segment that opens stands as the cut state becomes CUTTING. -/
theorem openSegment_keeps (p : Plan) (k : Nat) {answerWith : ReplyBody → State → State}
    (h : ∀ b s, Keeps s (answerWith b s)) (s : State) : Keeps s (openSegment p k answerWith s) := by
  unfold openSegment
  refine .trans ?_ (h _ _)
  exact ⟨.of_read rfl, fun _ => toCut_consistent _ _ (fun _ => rfl) nofun⟩

theorem grantCut_keeps (c : Option Cmd) (s : State) : Keeps s (grantCut c s) := by
  unfold grantCut
  split
  · exact answer_keeps ..
  split
  · exact answer_keeps ..
  split
  · exact openSegment_keeps _ _ (answer_keeps c .ok) s
  · exact answer_keeps ..

/-! ### Frames heard -/

theorem countUp_le (n : Nat) : countUp n ≤ 4294967295 := Nat.min_le_right ..

/-- The line's counters stay in their ranges; nothing else of the line unit changes with them. -/
theorem setCounters_keeps (s : State) {sent deferrals errors : Nat}
    (h : CountersBounded s → sent ≤ 4294967295 ∧ deferrals ≤ 4294967295 ∧ errors ≤ 4294967295) :
    Keeps s { s with line := { s.line with framesSent := sent, deferrals := deferrals, receiveErrors := errors } } :=
  .of_units ⟨rfl, id, id, id, id, id, id, fun hc => ⟨hc.1, hc.2.1, h hc⟩⟩ rfl

theorem countReceiveError_keeps (s : State) : Keeps s (countReceiveError s) :=
  setCounters_keeps s fun ⟨_, _, hsent, hdeferrals, _⟩ => ⟨hsent, hdeferrals, countUp_le _⟩

theorem silence_keeps (s : State) : Keeps s (silence s) := by
  refine .trans ?_ (foldl_keeps_units (fun s (f : Nat × List SlabRecord) => ownSplit_keeps f.1 f.2 s) _ _)
  refine .trans ?_ (foldl_keeps_units (fun s (e : QEntry) => answer_keeps e.cmd .silent .none s) _ _)
  exact .of_units ⟨rfl, id, id, fun _ => ⟨Nat.zero_le _, nofun, nofun, iff_of_true rfl rfl⟩, id, id, id, id⟩ rfl

theorem duplicateHeard_keeps (s : State) : Keeps s (duplicateHeard s) := by
  unfold duplicateHeard
  split
  · exact .refl
  · exact (raise_keeps ..).trans (silence_keeps _)

theorem atFrameEnd_keeps {take : State → State} (h : ∀ s, Keeps s (take s)) (s : State) :
    Keeps s (atFrameEnd take s) := by
  unfold atFrameEnd
  split
  · exact .refl
  split
  · exact joinLine_keeps ..
  · exact h s

theorem hear_keeps (sender index count : Nat) (n : Notice) {apply : State → State} (h : ∀ s, Keeps s (apply s))
    (s : State) : Keeps s (hear sender index count n apply s) := by
  refine atFrameEnd_keeps (fun s => ?_) s
  unfold judgeFrame
  split
  · exact countReceiveError_keeps s
  split
  · exact duplicateHeard_keeps s
  · exact h s

theorem frameFails_keeps (bytes : List Byte) (s : State) : Keeps s (frameFails bytes s) := by
  refine atFrameEnd_keeps (fun s => ?_) s
  split
  · exact countReceiveError_keeps s
  · exact .refl

/-! ### The head of the queue -/

/-- R58: a WAIT reason withdraws a locking DRAW alone, and in PLANNED. -/
theorem planned_of_withdraw_wait {s : State} {e : QEntry} {code : Status} (h : revalidate s e = .withdraw code)
    (hw : isWait code = true) : s.cut.state = .planned := by
  by_contra hstate
  have hcode : code ∈ [Status.ok, .lost, .stale] := by
    unfold revalidate revalidateClaim ifUnmoved reversion revalidateLock revalidateDraw at h
    grind
  fin_cases hcode <;> exact absurd hw (by decide)

theorem withdrawn_keeps {e : QEntry} {code : Status} {s : State} (h : isWait code = true → s.cut.state = .planned) :
    Keeps s (withdrawn e code s) := by
  have hleft := (leaveQueue_keeps s).trans (answer_keeps e.cmd code .none _)
  unfold withdrawn
  refine .trans ?_ (releaseExpiry_keeps ..)
  split
  case isTrue hw => exact hleft.trans (setMark_keeps (.inl (by simpa using h hw)))
  case isFalse => exact hleft

theorem beginSending_keeps {e e' : QEntry} {rest : List QEntry} {s : State} (hq : s.line.queue = e :: rest) :
    Keeps s (beginSending e' s) := by
  refine .of_line (fun h => ?_) rfl
  rw [hq]
  exact replaceHead_consistent h hq (e' := { e' with attempts := e'.attempts + 1 }) (a := .sending) (by decide)

theorem holdHead_keeps {e e' : QEntry} {rest : List QEntry} {s : State} (hq : s.line.queue = e :: rest) :
    Keeps s (holdHead e' s) := by
  refine .of_line (fun h => ?_) rfl
  rw [hq]
  exact replaceHead_consistent h hq (e' := e') (a := .waitQuiet) (by decide)

theorem attempt_keeps (stillQuiet : Bool) (fuel : Nat) (quiet : Bool) (s : State) :
    Keeps s (attempt stillQuiet fuel quiet s) := by
  induction fuel generalizing quiet s with
  | zero => exact .refl
  | succ fuel ih =>
    rw [attempt]
    split
    · exact .refl
    split
    · split
      · exact beginSending_keeps ‹_›
      · exact holdHead_keeps ‹_›
    case h_2 hverdict => exact (withdrawn_keeps (planned_of_withdraw_wait hverdict)).trans (ih _ _)

theorem quietElapsed_keeps (stillQuiet : Bool) (s : State) : Keeps s (quietElapsed stillQuiet s) := by
  unfold quietElapsed
  split
  · exact (joinLine_keeps false s).trans (attempt_keeps ..)
  · exact .refl

theorem answerDraw_keeps (e : QEntry) (s : State) : Keeps s (answerDraw e s) := by
  unfold answerDraw
  split
  · exact grantCut_keeps ..
  · exact answer_keeps ..

theorem plantAnnounced_keeps (capacity : Nat) (stop stale : Bool) (s : State) :
    Keeps s (plantAnnounced capacity stop stale s) := .of_read ⟨rfl, rfl⟩

theorem applyOwn_keeps (e : QEntry) (s : State) : Keeps s (applyOwn e s) := by
  unfold applyOwn
  split
  case h_1 => exact applyYardIn_keeps ..
  case h_6 => exact ownSplit_keeps ..
  case h_8 => exact applyStockAsk_keeps ..
  case h_9 =>
    refine .trans ?_ (applyStockState_keeps ..)
    exact .of_read ⟨rfl, rfl⟩
  case h_10 => exact (applyDraw_keeps ..).trans (answerDraw_keeps ..)
  case h_11 => exact (applyPlant_keeps ..).trans (plantAnnounced_keeps ..)
  case h_12 => exact applyOverride_keeps ..
  case h_13 => exact applyTally_keeps ..
  case h_14 => exact applyJobOpen_keeps ..
  case h_15 => exact applyJobClose_keeps ..
  case h_16 => exact (restartStock_keeps ..).trans (removeDraw_keeps ..)
  all_goals exact applyChecked_keeps ..

theorem echoClean_keeps (s : State) : Keeps s (echoClean s) := by
  unfold echoClean
  split
  · refine .trans ?_ (applyOwn_keeps ..)
    refine .trans (leaveQueue_keeps s) ?_
    exact setCounters_keeps _ fun ⟨_, _, _, hdeferrals, herrors⟩ => ⟨countUp_le _, hdeferrals, herrors⟩
  · exact .refl

theorem lostSplit_keeps (e : QEntry) (s : State) : Keeps s (lostSplit e s) := by
  unfold lostSplit
  split
  · split
    · exact ownSplit_keeps ..
    · exact queueNotices_keeps ..
  · exact .refl

theorem noticeLost_keeps (e : QEntry) (s : State) : Keeps s (noticeLost e s) := by
  unfold noticeLost
  refine .trans ?_ (lostSplit_keeps ..)
  refine .trans ?_ (releaseExpiry_keeps ..)
  refine .trans ?_ (answer_keeps ..)
  exact (leaveQueue_keeps s).trans (raise_keeps ..)

theorem echoDiffers_keeps (s : State) : Keeps s (echoDiffers s) := by
  unfold echoDiffers
  split
  case h_1 haccess hqueue =>
    split
    · exact noticeLost_keeps ..
    · refine .of_units ⟨rfl, id, id, fun ⟨hlen, hfull, hnotices, _⟩ => ⟨hlen, hfull, hnotices, ?_⟩, id, id, id,
        fun ⟨htime, herrors, hsent, _, hreceive⟩ => ⟨htime, herrors, hsent, countUp_le _, hreceive⟩⟩ rfl
      simp [hqueue]
  · exact .refl

theorem deferralEnds_keeps (s : State) : Keeps s (deferralEnds s) := by
  unfold deferralEnds
  split
  case h_1 haccess =>
    refine .of_line (fun ⟨hlen, hfull, hnotices, hidle⟩ => ⟨hlen, hfull, hnotices, ?_⟩) rfl
    rw [haccess] at hidle
    exact iff_of_false nofun fun hq => nomatch hidle.mpr hq
  · exact .refl

end Sys2Proof.Machine
end

section
/-! PROOF. Start-up, the timers and the machine-port commands keep the units' invariants. -/

namespace Sys2Proof.Machine

/-! ### Start-up -/

@[simp] theorem releaseHeld_portErrors (p : Port) : (releaseHeld p).portErrors = p.portErrors := by simp [releaseHeld]

theorem endStarting_keeps (r : RunState) (s : State) : Keeps s (endStarting r s) :=
  .of_read (by simp [endStarting])

theorem enterConfigFault_keeps (k : FaultKind) (d : Nat) (s : State) : Keeps s (enterConfigFault k d s) :=
  ((raise_keeps k d s).trans (endStarting_keeps ..)).trans (answer_keeps ..)

theorem announceSelf_keeps (s : State) : Keeps s (announceSelf s) := by
  unfold announceSelf
  dsimp only
  split
  · exact queueNotices_keeps ..
  · exact (queueNotices_keeps ..).trans (queueDraw_keeps ..)

/-- R106, R128: a table of the own entry alone is in order, and its grant of 0 fits. -/
theorem ownTable_fits_ordered {t : State} (h : t.water.draws = [DrawEntry.own t.station]) : WaterFits t ∧ DrawsOrdered t := by
  simp [WaterFits, DrawsOrdered, h, DrawEntry.own, unlockedSum, grantSum]

/-- R128: the water unit starts afresh at a station whose record may be another. -/
theorem startUnits_units {s t : State} (hpending : t.pending = s.pending) (hline : LineOrdered s → LineOrdered t)
    (hstock : StockBounded s → StockBounded t) (hcost : CostBounded s → CostBounded t)
    (hwear : WearBounded s → WearBounded t) (hcounters : CountersBounded s → CountersBounded t) :
    UnitsKept s (startUnits t) :=
  have hown := ownTable_fits_ordered (t := startUnits t) rfl
  ⟨hpending, fun _ => hown.1, fun _ => hown.2, hline, hstock, hcost, hwear, hcounters⟩

theorem rearm_keeps (s : State) : Keeps s (rearm s) := .of_read (by simp)

theorem cutInRole_remainder_le (r : Role) (c : CutUnit) : (cutInRole r c).blade.remainder ≤ c.blade.remainder := by
  unfold cutInRole
  split
  · exact le_refl _
  · exact Nat.zero_le _

theorem enterService_keeps (frameUnderWay : Bool) (record : ConfigRecord) (epoch : Nat) (s : State) :
    Keeps s (enterService frameUnderWay record epoch s) := by
  unfold enterService
  refine .trans ?_ (answer_keeps ..)
  refine .trans ?_ (announceSelf_keeps _)
  refine .trans ?_ (joinLine_keeps ..)
  refine .trans ?_ (rearm_keeps _)
  refine ⟨startUnits_units rfl id id id (Nat.lt_of_le_of_lt (cutInRole_remainder_le ..)) ?_, ?_⟩
  · simp [CountersBounded, endStarting]
  · simp only [CutConsistent, startUnits, endStarting, cutInRole]
    split <;> exact id

theorem recordRead_keeps (address : Option Nat) (s : State) : Keeps s (recordRead address s) := by
  unfold recordRead
  split
  · exact enterConfigFault_keeps ..
  split
  · exact enterConfigFault_keeps ..
  · exact .of_read ⟨rfl, rfl⟩

/-- Bytes of the EEPROM and free values drawn are no part of the invariants. -/
theorem setEeprom_keeps (n : Nat) (eeprom : List Byte) (s : State) :
    Keeps s { s with freeCount := n, boot := { s.boot with eeprom := eeprom } } := .of_read ⟨rfl, rfl⟩

theorem epochWritten_keeps (result : EpochWrite) (record : ConfigRecord) (epoch : Nat) (s : State) :
    Keeps s (epochWritten result record epoch s) := by
  unfold epochWritten
  split
  case h_1 => exact (setEeprom_keeps s.freeCount _ s).trans (enterService_keeps ..)
  all_goals exact (setEeprom_keeps (s.freeCount + 1) _ s).trans (enterConfigFault_keeps ..)

theorem recordWritten_keeps (address : Option Nat) (bytes : List Byte) (s : State) :
    Keeps s (recordWritten address bytes s) := by
  unfold recordWritten
  split
  · exact .of_read ⟨rfl, rfl⟩
  · exact (setEeprom_keeps (s.freeCount + 1) _ s).trans (enterConfigFault_keeps ..)

theorem emptyLine_ordered {s : State} (hq : s.line.queue = []) (hw : s.line.waiters = [])
    (ha : s.line.access = .idle) : LineOrdered s := by simp [LineOrdered, hq, hw, ha]

theorem resetCut_consistent {s : State} (hsegment : s.cut.segment = none) (hwaiting : s.cut.waiting = false)
    (hstate : s.cut.state = .empty) (hplan : s.plan = PlanUnit.reset) : CutConsistent s := by
  simp [CutConsistent, hsegment, hwaiting, hstate, hplan, PlanUnit.reset]

theorem rewriteReset_keeps (record : List Byte) (s : State) : Keeps s (rewriteReset record s) := by
  have hown := ownTable_fits_ordered (t := rewriteReset record s) rfl
  refine ⟨⟨rfl, fun _ => hown.1, fun _ => hown.2, fun _ => emptyLine_ordered rfl rfl rfl, ?stock, ?cost, id, ?counters⟩,
    fun _ => resetCut_consistent rfl rfl rfl rfl⟩
  case stock => exact fun ⟨_, _, hseq⟩ => ⟨Nat.zero_le _, List.nodup_nil, hseq⟩
  case cost => exact fun ⟨_, _, hlog⟩ => ⟨Nat.zero_le _, List.nodup_nil, hlog⟩
  case counters => exact fun ⟨htime, herrors, _⟩ => ⟨htime, herrors, Nat.zero_le _, Nat.zero_le _, Nat.zero_le _⟩

theorem clearReset_keeps (s : State) : Keeps s (clearReset s) := by
  refine ⟨startUnits_units rfl (fun _ => emptyLine_ordered rfl rfl rfl) ?stock
    (fun _ => ⟨Nat.zero_le _, List.nodup_nil, Nat.zero_le _⟩) id ?counters,
    fun _ => resetCut_consistent rfl rfl rfl rfl⟩
  case stock => exact fun ⟨_, _, hseq⟩ => ⟨Nat.zero_le _, List.nodup_nil, hseq⟩
  case counters => exact fun ⟨htime, _⟩ => ⟨htime, Nat.zero_le _, Nat.zero_le _, Nat.zero_le _, Nat.zero_le _⟩

theorem powerUp_keeps (s : State) : Keeps s (powerUp s) := by
  have hown := ownTable_fits_ordered (t := powerUp s) rfl
  refine ⟨⟨rfl, fun _ => hown.1, fun _ => hown.2, fun _ => emptyLine_ordered rfl rfl rfl, fun _ => ?stock,
    fun _ => ⟨Nat.zero_le _, List.nodup_nil, Nat.zero_le _⟩, fun _ => Nat.zero_lt_succ _,
    fun _ => ⟨Nat.zero_le _, Nat.zero_le _, Nat.zero_le _, Nat.zero_le _, Nat.zero_le _⟩⟩,
    fun _ => resetCut_consistent rfl rfl rfl rfl⟩
  exact ⟨Nat.zero_le _, List.nodup_nil, le_refl _, show (1 : Nat) ≤ 65536 by decide⟩

/-! ### Line test and time -/

theorem endLineTest_keeps (received : List Byte) (frameUnderWay : Bool) (s : State) :
    Keeps s (endLineTest received frameUnderWay s) := by
  unfold endLineTest
  refine .trans ?_ (answer_keeps ..)
  exact .of_read ⟨rfl, rfl⟩

theorem tickDraws_fits (f : DrawEntry → Option Nat) (ds : List DrawEntry) :
    unlockedSum (ds.map fun d => { d with age := f d }) = unlockedSum ds
      ∧ lockedSum (ds.map fun d => { d with age := f d }) = lockedSum ds := by
  induction ds with
  | nil => exact ⟨rfl, rfl⟩
  | cons d ds ih => simp only [List.map_cons, unlockedSum_cons, lockedSum_cons, ih, and_self]

theorem tickTimers_keeps (s : State) : Keeps s (tickTimers s) := by
  have hstock := mapStock_keeps (f := tickEntry) (fun _ => rfl) s
  have hsums := tickDraws_fits (fun d => countDown d.age) s.water.draws
  have hstations : (tickTimers s).water.draws.map (·.station) = s.water.draws.map (·.station) := by
    simp [tickTimers, Function.comp_def]
  refine .of_units ⟨rfl, fun ⟨hfit, hgrant⟩ => ⟨?_, ?_⟩, fun h => ?_, id, hstock.stock, id, id, id⟩ rfl
  · simpa only [tickTimers, hsums] using hfit
  · simpa [tickTimers] using hgrant
  · rw [drawsOrdered_iff_stations] at h ⊢
    rw [hstations]
    exact h

theorem advanceTime_keeps (s : State) : Keeps s (advanceTime s) :=
  .of_units ⟨rfl, id, id, id, id, id, id, fun ⟨_, h⟩ => ⟨Nat.le_of_lt_succ (Nat.mod_lt _ (by decide)), h⟩⟩ rfl

theorem loopTimeout_keeps (s : State) : Keeps s (loopTimeout s) := by
  unfold loopTimeout
  refine .trans ?_ (endLineTest_keeps ..)
  exact .of_read ⟨rfl, rfl⟩

theorem tick_keeps (s : State) : Keeps s (tick s) := by
  have htimers : Keeps s (if s.inService = true then tickTimers (advanceTime s) else advanceTime s) := by
    split
    · exact (advanceTime_keeps s).trans (tickTimers_keeps _)
    · exact advanceTime_keeps s
  unfold tick
  dsimp only
  split
  · exact htimers.trans (loopTimeout_keeps _)
  · exact htimers

/-! ### Commands of every role -/

theorem countPortError_keeps (s : State) : Keeps s (countPortError s) :=
  .of_units ⟨rfl, id, id, id, id, id, id, fun ⟨htime, _, h⟩ => ⟨htime, Nat.min_le_right .., h⟩⟩ rfl

theorem gate_keeps (c : Cmd) (fieldsOk : Bool) {owner : State → State} (h : ∀ s, Keeps s (owner s)) (s : State) :
    Keeps s (gate c fieldsOk owner s) := by
  unfold gate
  split
  · exact countPortError_keeps s
  split
  · exact reply_keeps ..
  · exact h s

theorem takeStatus_keeps (s : State) : Keeps s (takeStatus s) := by
  have hcleared : Keeps s (clearOverrun s) := .of_read ⟨rfl, rfl⟩
  unfold takeStatus
  split
  case h_1 | h_2 => exact reply_keeps ..
  all_goals exact hcleared.trans (reply_keeps ..)

theorem takeQuerySlab_keeps (id : SlabId) (s : State) : Keeps s (takeQuerySlab id s) := by
  unfold takeQuerySlab
  split
  · exact reply_keeps ..
  · split <;> exact reply_keeps ..

theorem takeQueryJob_keeps (job : Nat) (s : State) : Keeps s (takeQueryJob job s) := by
  unfold takeQueryJob
  split
  · exact reply_keeps ..
  · split <;> exact reply_keeps ..

theorem takeLogRead_keeps (count : Nat) (s : State) : Keeps s (takeLogRead count s) :=
  (readLog_keeps count s).trans (reply_keeps ..)

theorem takeFaultAck_keeps (kinds : Nat) (s : State) : Keeps s (takeFaultAck kinds s) := by
  unfold takeFaultAck
  refine .trans ?_ (reply_keeps ..)
  exact .of_read ⟨rfl, rfl⟩

theorem takeClear_keeps (s : State) : Keeps s (takeClear s) := by
  unfold takeClear
  split
  · exact ((clearReset_keeps s).trans (reply_keeps ..)).trans (announceSelf_keeps _)
  · exact reply_keeps ..

theorem takeLineTest_keeps (s : State) : Keeps s (takeLineTest s) := by
  have hbegun : Keeps s (beginLineTest s) := .of_read ⟨rfl, rfl⟩
  unfold takeLineTest
  split
  · exact reply_keeps ..
  split
  · exact hbegun.trans (keep_keeps ..)
  · exact reply_keeps ..

theorem takeConfigWrite_keeps (record : List Byte) (s : State) : Keeps s (takeConfigWrite record s) := by
  unfold takeConfigWrite
  split
  · exact (rewriteReset_keeps record s).trans (keep_keeps ..)
  · exact reply_keeps ..

theorem takeUnknown_keeps (type : Byte) (body : List Byte) (s : State) : Keeps s (takeUnknown type body s) := by
  unfold takeUnknown
  split
  · exact .refl
  split
  · exact countPortError_keeps s
  · exact replyNow_keeps ..

theorem takeDropped_keeps (bytes : List Byte) (gap : Bool) (s : State) : Keeps s (takeDropped bytes gap s) := by
  unfold takeDropped
  split
  · exact .refl
  split
  · exact countPortError_keeps s
  · exact .refl

@[simp] theorem frameSent_portErrors (p : Port) : (frameSent p).portErrors = p.portErrors := by
  unfold frameSent; split <;> simp

theorem frameSent_keeps (s : State) : Keeps s { s with port := frameSent s.port } := .of_read (by simp)

/-! ### Commands of the plant and the console -/

theorem acceptReport_keeps (level clarifier makeup : Nat) (s : State) :
    Keeps s (acceptReport level clarifier makeup s) := .of_read ⟨rfl, rfl⟩

theorem takePlantReport_keeps (level clarifier makeup : Nat) (s : State) :
    Keeps s (takePlantReport level clarifier makeup s) :=
  ((acceptReport_keeps ..).trans (announceTest_keeps _)).trans (reply_keeps ..)

theorem issueId_keeps {s : State} (h : idsExhausted s = false) : Keeps s (issueId s) := by
  refine .of_stock fun ⟨hlen, hn, hlow, _⟩ => ⟨hlen, hn, Nat.le_succ_of_le hlow, ?_⟩
  have : s.stock.seqNext ≤ 65535 := by simpa [idsExhausted] using h
  exact Nat.succ_le_succ this

theorem takeYardIn_keeps (cls thickness length width : Nat) (defects : List Defect) (value : Nat) (s : State) :
    Keeps s (takeYardIn cls thickness length width defects value s) := by
  unfold takeYardIn
  split
  · exact reply_keeps ..
  split
  · exact reply_keeps ..
  case isFalse hids =>
    refine .trans ?_ (queueCommand_keeps ..)
    split
    · exact issueId_keeps (Bool.eq_false_iff.mpr hids)
    · exact .refl

theorem onSlabIn_keeps (c : Cmd) (id : SlabId) (st : SlabState) (notice : SlabRecord → Notice) (s : State) :
    Keeps s (onSlabIn c id st notice s) := by
  unfold onSlabIn
  split
  · exact reply_keeps ..
  split
  · exact queueCommand_keeps ..
  · exact reply_keeps ..

theorem takeJobOpen_keeps (job : Nat) (s : State) : Keeps s (takeJobOpen job s) := by
  unfold takeJobOpen
  split
  · exact reply_keeps ..
  · exact queueCommand_keeps ..

theorem takeJobClose_keeps (job : Nat) (s : State) : Keeps s (takeJobClose job s) := by
  unfold takeJobClose
  split
  · exact reply_keeps ..
  · exact queueCommand_keeps ..

theorem takeWaterOverride_keeps (s : State) : Keeps s (takeWaterOverride s) := by
  unfold takeWaterOverride
  split
  · exact reply_keeps ..
  · exact queueCommand_keeps ..

end Sys2Proof.Machine
end

section
/-! PROOF. Every command, event and tick keeps the invariants of the units, and the queue of waiting commands; the
obligations on a step. -/

namespace Sys2Proof.Machine

/-! ### Claims and loading -/

theorem takeClaim_keeps (id : SlabId) (job priority : Nat) (s : State) : Keeps s (takeClaim id job priority s) := by
  unfold takeClaim
  split
  · exact reply_keeps ..
  · exact queueCommand_keeps ..
  · exact reply_keeps ..

theorem onOwnClaim_keeps (c : Cmd) (id : SlabId) (notice : SlabRecord → Notice) (s : State) :
    Keeps s (onOwnClaim c id notice s) := by
  unfold onOwnClaim
  split
  · exact reply_keeps ..
  split
  · exact queueCommand_keeps ..
  · exact reply_keeps ..

theorem takeUnload_keeps (s : State) : Keeps s (takeUnload s) := by
  unfold takeUnload
  split
  · exact reply_keeps ..
  split
  · exact queueCommand_keeps ..
  · exact reply_keeps ..

/-! ### Plans -/

theorem takePlanBegin_keeps (h : PlanHeader) (s : State) : Keeps s (takePlanBegin h s) := by
  unfold takePlanBegin
  split
  · split
    · refine .trans ?_ (reply_keeps ..)
      exact ⟨.of_read rfl, fun _ => toCut_consistent _ _ nofun fun _ => rfl⟩
    · exact reply_keeps ..
  · exact reply_keeps ..

theorem dropStaging_keeps (s : State) : Keeps s (dropStaging s) :=
  ⟨.of_read rfl, fun _ => toCut_consistent _ _ nofun nofun⟩

theorem dropUncutPlan_keeps (s : State) : Keeps s (dropUncutPlan s) :=
  (clearPlan_keeps s).trans (toCut_keeps (by decide) (by decide) _)

theorem takePlanPart_keeps (steps : List StepEntry) (leaves : List LeafEntry) (s : State) :
    Keeps s (takePlanPart steps leaves s) := by
  unfold takePlanPart
  split
  case h_1 g hstate hstaging =>
    dsimp only
    split
    · exact reply_keeps ..
    split
    · exact (dropStaging_keeps s).trans (reply_keeps ..)
    · refine .trans ?_ (reply_keeps ..)
      exact ⟨.of_read rfl, fun ⟨hsegment, _, hwaiting, hplan⟩ => ⟨hsegment, iff_of_true rfl hstate, hwaiting, hplan⟩⟩
  case h_2 => exact reply_keeps ..

theorem adoptPlan_keeps (p : Plan) (s : State) : Keeps s (adoptPlan p s) := by
  unfold adoptPlan
  refine .trans ?_ (foldl_keeps_units (fun s j => ensureJob_keeps j s) _ _)
  exact ⟨.of_read rfl, fun _ => toCut_consistent _ _ nofun nofun⟩

theorem takePlanEnd_keeps (s : State) : Keeps s (takePlanEnd s) := by
  unfold takePlanEnd
  split
  · split
    · exact (adoptPlan_keeps ..).trans (reply_keeps ..)
    · exact (dropStaging_keeps s).trans (reply_keeps ..)
  · exact reply_keeps ..

theorem takePlanDrop_keeps (s : State) : Keeps s (takePlanDrop s) := by
  unfold takePlanDrop
  split
  · exact (dropStaging_keeps s).trans (reply_keeps ..)
  split
  · exact (dropUncutPlan_keeps s).trans (reply_keeps ..)
  · exact reply_keeps ..

/-- A segment that closes leaves a plan standing where one stood. -/
theorem closeSegment_plan_isSome (length : Nat) (s : State) :
    (closeSegment length s).plan.plan.isSome = s.plan.plan.isSome := by
  unfold closeSegment
  split
  case h_1 hplan _ =>
    split
    · rfl
    · simp [chargeSegment, hplan]
  case h_2 => rfl

theorem closeSegment_of_no_plan {s : State} (length : Nat) (h : s.plan.plan = none) : closeSegment length s = s := by
  simp only [closeSegment, h]

/-- R52: an abort completes the plan that stands, its open segment closed before. -/
theorem abortPlan_keeps {s t : State} (h : UnitsKept s t) (hplan : t.plan.plan = none → t = s) :
    Keeps s (abortPlan t) := by
  unfold abortPlan
  split
  case h_1 hnone => rw [hplan hnone]; exact reply_keeps ..
  case h_2 => exact (complete_keeps _ s t h).trans (reply_keeps ..)

theorem takePlanAbort_keeps (length : Nat) (s : State) : Keeps s (takePlanAbort length s) := by
  have hself : Keeps s (abortPlan s) := abortPlan_keeps Keeps.refl.toUnitsKept fun _ => rfl
  unfold takePlanAbort
  split
  case h_1 => exact (dropStaging_keeps s).trans (reply_keeps ..)
  case h_2 =>
    split
    · exact (dropUncutPlan_keeps s).trans (reply_keeps ..)
    · exact hself
  case h_3 =>
    refine abortPlan_keeps (closeSegment_units length s) fun hnone => closeSegment_of_no_plan length ?_
    rw [← Option.not_isSome_iff_eq_none, ← closeSegment_plan_isSome length s, hnone]
    exact Bool.false_ne_true
  case h_4 => exact hself
  all_goals exact reply_keeps ..

theorem takeQueryPlan_keeps (s : State) : Keeps s (takeQueryPlan s) := by
  unfold takeQueryPlan
  split <;> exact reply_keeps ..

/-! ### Cuts -/

theorem askLock_keeps (s : State) : Keeps s (askLock s) := by
  unfold askLock
  split
  · exact reply_keeps ..
  split
  · exact reply_keeps ..
  · refine .trans ?_ (keep_keeps ..)
    exact .of_line (putNotices_consistent _ _) (by simp)

theorem resumeCut_keeps (s : State) : Keeps s (resumeCut s) := by
  unfold resumeCut
  split
  · exact reply_keeps ..
  split
  · exact reply_keeps ..
  · exact openSegment_keeps _ _ (reply_keeps .cutAsk .ok) s

theorem takeCutAsk_keeps (s : State) : Keeps s (takeCutAsk s) := by
  unfold takeCutAsk
  split
  case h_1 hstate =>
    split
    · exact (reply_keeps ..).trans (setMark_keeps (.inl (by simpa using hstate)))
    · exact askLock_keeps s
  case h_2 hstate =>
    split
    · exact (reply_keeps ..).trans (setMark_keeps (.inr (by simpa using hstate)))
    · exact resumeCut_keeps s
  all_goals exact reply_keeps ..

theorem suspendCut_keeps (length : Nat) (s : State) : Keeps s (suspendCut length s) := by
  have hsuspended : Keeps s (toCut .suspended (closeSegment length s)) :=
    ⟨(closeSegment_units length s).trans (toCut_units ..), fun _ => toCut_consistent _ _ nofun nofun⟩
  unfold suspendCut
  dsimp only
  split
  · exact hsuspended.trans (setMark_keeps (.inr rfl))
  · exact hsuspended

theorem takeCutHalted_keeps (length : Nat) (s : State) : Keeps s (takeCutHalted length s) := by
  unfold takeCutHalted
  split
  · exact (suspendCut_keeps ..).trans (reply_keeps ..)
  · exact reply_keeps ..

theorem endStep_keeps (k length : Nat) (s : State) : Keeps s (endStep k (closeSegment length s)) := by
  have hclosed := closeSegment_units length s
  unfold endStep
  split
  case h_1 hnone =>
    rw [closeSegment_of_no_plan]
    · exact .refl
    · rw [← Option.not_isSome_iff_eq_none, ← closeSegment_plan_isSome length s, hnone]
      exact Bool.false_ne_true
  case h_2 p _ =>
    dsimp only
    have hfinished : UnitsKept s { closeSegment length s with
        plan := { (closeSegment length s).plan with plan := some (finishStep k p) } } := hclosed.trans (.of_read rfl)
    split
    · refine .trans ?_ (queueDraw_keeps ..)
      exact ⟨hfinished.trans (toCut_units ..), fun _ => toCut_consistent _ _ nofun nofun⟩
    · exact complete_keeps _ s _ hfinished

theorem takeCutDone_keeps (length : Nat) (s : State) : Keeps s (takeCutDone length s) := by
  unfold takeCutDone
  split
  · exact (endStep_keeps ..).trans (reply_keeps ..)
  · exact reply_keeps ..

/-! ### The blade, parking and priming -/

theorem mountBlade_keeps (type serial height : Nat) (s : State) : Keeps s (mountBlade type serial height s) :=
  .of_units ⟨rfl, id, id, id, id, id, fun _ => Nat.zero_lt_succ _, id⟩ rfl

theorem takeBladeChange_keeps (type serial height : Nat) (s : State) :
    Keeps s (takeBladeChange type serial height s) := by
  unfold takeBladeChange
  split
  · exact reply_keeps ..
  split
  · exact reply_keeps ..
  · refine .trans ?_ (evaluateMark_keeps _)
    refine .trans ?_ (reworkRequest_keeps ..)
    exact (mountBlade_keeps ..).trans (reply_keeps ..)

theorem parkWith_keeps (c : Cmd) (parked : Bool) (priming : Option Nat) (s : State) :
    Keeps s (parkWith c parked priming s) := by
  unfold parkWith
  split
  · exact reply_keeps ..
  split
  · exact reply_keeps ..
  · refine .trans ?_ (keep_keeps ..)
    refine .trans ?_ (queueDraw_keeps ..)
    exact .of_read ⟨rfl, rfl⟩

theorem takePark_keeps (s : State) : Keeps s (takePark s) := by
  unfold takePark
  split
  · exact reply_keeps ..
  split
  · exact reply_keeps ..
  · exact parkWith_keeps ..

theorem takeUnpark_keeps (s : State) : Keeps s (takeUnpark s) := by
  unfold takeUnpark
  split
  · exact reply_keeps ..
  · exact parkWith_keeps ..

theorem primingEnds_keeps (s : State) : Keeps s (primingEnds s) := by
  have hended : Keeps s { s with cut := { s.cut with priming := none } } := .of_read ⟨rfl, rfl⟩
  unfold primingEnds
  dsimp only
  split
  · exact hended.trans (setMark_keeps (.inl ‹_›))
  · exact hended

theorem refreshExpired_keeps (s : State) : Keeps s (refreshExpired s) := by
  have hstarted : Keeps s { s with water := { s.water with refresh := some 100 } } := .of_read ⟨rfl, rfl⟩
  unfold refreshExpired
  dsimp only
  split
  · exact hstarted.trans (queueDraw_keeps ..)
  · exact hstarted

/-! ### Every command and event -/

/-- A change made on a condition keeps what the change keeps. -/
theorem ite_keeps {c : Prop} [Decidable c] {s t : State} (h : Keeps s t) : Keeps s (if c then t else s) := by
  split
  · exact h
  · exact .refl

/-- Every command and event answers a next state, which keeps the invariants of the units. -/
theorem exec_keeps (i : Instr) (s : State) : ∃ t, exec i s = .next t ∧ Keeps s t := by
  cases i with
  | status => exact ⟨_, rfl, gate_keeps _ _ takeStatus_keeps s⟩
  | querySlab id => exact ⟨_, rfl, gate_keeps _ _ (takeQuerySlab_keeps id) s⟩
  | queryJob job => exact ⟨_, rfl, gate_keeps _ _ (takeQueryJob_keeps job) s⟩
  | stockList start filter => exact ⟨_, rfl, gate_keeps _ _ (fun _ => reply_keeps ..) s⟩
  | logRead count => exact ⟨_, rfl, gate_keeps _ _ (takeLogRead_keeps count) s⟩
  | faultRead => exact ⟨_, rfl, gate_keeps _ _ (fun _ => reply_keeps ..) s⟩
  | faultAck kinds => exact ⟨_, rfl, gate_keeps _ _ (takeFaultAck_keeps kinds) s⟩
  | clear => exact ⟨_, rfl, gate_keeps _ _ takeClear_keeps s⟩
  | lineTest => exact ⟨_, rfl, gate_keeps _ _ takeLineTest_keeps s⟩
  | configWrite record => exact ⟨_, rfl, gate_keeps _ _ (takeConfigWrite_keeps record) s⟩
  | claim id job priority => exact ⟨_, rfl, gate_keeps _ _ (takeClaim_keeps id job priority) s⟩
  | release id => exact ⟨_, rfl, gate_keeps _ _ (onOwnClaim_keeps _ id _) s⟩
  | load id => exact ⟨_, rfl, gate_keeps _ _ (fun s => onOwnClaim_keeps _ id _ s) s⟩
  | unload => exact ⟨_, rfl, gate_keeps _ _ takeUnload_keeps s⟩
  | planBegin header => exact ⟨_, rfl, gate_keeps _ _ (takePlanBegin_keeps header) s⟩
  | planPart steps leaves => exact ⟨_, rfl, gate_keeps _ _ (takePlanPart_keeps steps leaves) s⟩
  | planEnd => exact ⟨_, rfl, gate_keeps _ _ takePlanEnd_keeps s⟩
  | planDrop => exact ⟨_, rfl, gate_keeps _ _ takePlanDrop_keeps s⟩
  | planAbort length => exact ⟨_, rfl, gate_keeps _ _ (takePlanAbort_keeps length) s⟩
  | cutAsk => exact ⟨_, rfl, gate_keeps _ _ takeCutAsk_keeps s⟩
  | cutHalted length => exact ⟨_, rfl, gate_keeps _ _ (takeCutHalted_keeps length) s⟩
  | cutDone length => exact ⟨_, rfl, gate_keeps _ _ (takeCutDone_keeps length) s⟩
  | bladeChange type serial height => exact ⟨_, rfl, gate_keeps _ _ (takeBladeChange_keeps type serial height) s⟩
  | park => exact ⟨_, rfl, gate_keeps _ _ takePark_keeps s⟩
  | unpark => exact ⟨_, rfl, gate_keeps _ _ takeUnpark_keeps s⟩
  | queryPlan => exact ⟨_, rfl, gate_keeps _ _ takeQueryPlan_keeps s⟩
  | plantReport level clarifier makeup =>
    exact ⟨_, rfl, gate_keeps _ _ (takePlantReport_keeps level clarifier makeup) s⟩
  | yardIn cls thickness length width defects value =>
    exact ⟨_, rfl, gate_keeps _ _ (takeYardIn_keeps cls thickness length width defects value) s⟩
  | scrap id => exact ⟨_, rfl, gate_keeps _ _ (onSlabIn_keeps _ id _ _) s⟩
  | forceFree id => exact ⟨_, rfl, gate_keeps _ _ (onSlabIn_keeps _ id _ _) s⟩
  | jobOpen job => exact ⟨_, rfl, gate_keeps _ _ (takeJobOpen_keeps job) s⟩
  | jobClose job => exact ⟨_, rfl, gate_keeps _ _ (takeJobClose_keeps job) s⟩
  | waterOverride => exact ⟨_, rfl, gate_keeps _ _ takeWaterOverride_keeps s⟩
  | unknownCommandType type body => exact ⟨_, rfl, takeUnknown_keeps type body s⟩
  | commandFrameDropped bytes gap => exact ⟨_, rfl, takeDropped_keeps bytes gap s⟩
  | outputFrameSent => exact ⟨_, rfl, frameSent_keeps s⟩
  | yardInNotice sender r => exact ⟨_, rfl, hear_keeps _ _ _ _ (applyYardIn_keeps r none) s⟩
  | claimNotice sender pre r => exact ⟨_, rfl, hear_keeps _ _ _ _ (applyChecked_keeps _ sender pre r none) s⟩
  | lapseNotice sender pre r => exact ⟨_, rfl, hear_keeps _ _ _ _ (applyChecked_keeps _ sender pre r none) s⟩
  | freeNotice sender why pre r => exact ⟨_, rfl, hear_keeps _ _ _ _ (applyChecked_keeps _ sender pre r none) s⟩
  | loadNotice sender pre r => exact ⟨_, rfl, hear_keeps _ _ _ _ (applyChecked_keeps _ sender pre r none) s⟩
  | splitNotice sender index count pre rs => exact ⟨_, rfl, hear_keeps _ _ _ _ (applySplit_keeps sender pre rs) s⟩
  | scrapNotice sender pre r => exact ⟨_, rfl, hear_keeps _ _ _ _ (applyChecked_keeps _ sender pre r none) s⟩
  | stockAskNotice sender => exact ⟨_, rfl, hear_keeps _ _ _ _ (applyStockAsk_keeps sender) s⟩
  | stockStateNotice sender index count rs => exact ⟨_, rfl, hear_keeps _ _ _ _ (applyStockState_keeps rs) s⟩
  | drawNotice sender request lock grant =>
    exact ⟨_, rfl, hear_keeps _ _ _ _ (applyDraw_keeps sender request lock grant) s⟩
  | plantNotice sender capacity fresh stop stale =>
    exact ⟨_, rfl, hear_keeps _ _ _ _ (applyPlant_keeps sender capacity fresh stop stale) s⟩
  | waterOverrideNotice sender => exact ⟨_, rfl, hear_keeps _ _ _ _ (applyOverride_keeps none) s⟩
  | tallyNotice sender t => exact ⟨_, rfl, hear_keeps _ _ _ _ (applyTally_keeps sender t) s⟩
  | jobOpenNotice sender job => exact ⟨_, rfl, hear_keeps _ _ _ _ (applyJobOpen_keeps job none) s⟩
  | jobCloseNotice sender job => exact ⟨_, rfl, hear_keeps _ _ _ _ (applyJobClose_keeps job none) s⟩
  | restartNotice sender =>
    exact ⟨_, rfl, hear_keeps _ _ _ _ (fun s => (restartStock_keeps sender s).trans (removeDraw_keeps ..)) s⟩
  | frameDropped bytes => exact ⟨_, rfl, frameFails_keeps bytes s⟩
  | duplicateNumber => exact ⟨_, rfl, atFrameEnd_keeps duplicateHeard_keeps s⟩
  | quietWaitElapsed stillQuiet => exact ⟨_, rfl, quietElapsed_keeps stillQuiet s⟩
  | cleanEcho => exact ⟨_, rfl, echoClean_keeps s⟩
  | echoMismatch => exact ⟨_, rfl, echoDiffers_keeps s⟩
  | deferralEnd => exact ⟨_, rfl, deferralEnds_keeps s⟩
  | lineTestEnd loop => exact ⟨_, rfl, ite_keeps (endLineTest_keeps ..)⟩
  | claimWindowExpiry => exact ⟨_, rfl, ite_keeps (windowExpired_keeps s)⟩
  | orphanWatchExpiry id => exact ⟨_, rfl, ite_keeps (orphanExpired_keeps id s)⟩
  | primingEnd => exact ⟨_, rfl, ite_keeps (primingEnds_keeps s)⟩
  | refreshTimerExpiry => exact ⟨_, rfl, ite_keeps (refreshExpired_keeps s)⟩
  | ageTimerExpiry station => exact ⟨_, rfl, ite_keeps (removeDraw_keeps station s)⟩
  | plantHeardTimerExpiry => exact ⟨_, rfl, ite_keeps (plantSilent_keeps s)⟩
  | reportTimerExpiry => exact ⟨_, rfl, ite_keeps (reportsStale_keeps s)⟩
  | announceTimerExpiry => exact ⟨_, rfl, ite_keeps (announceExpired_keeps s)⟩
  | powerOn => exact ⟨_, rfl, powerUp_keeps s⟩
  | autoload address =>
    refine ⟨_, rfl, ?_⟩
    split
    · exact recordRead_keeps ..
    all_goals exact .refl
  | epochWriteBack result =>
    refine ⟨_, rfl, ?_⟩
    split
    · exact epochWritten_keeps ..
    all_goals exact .refl
  | configRecordWrite address =>
    refine ⟨_, rfl, ?_⟩
    split
    · exact recordWritten_keeps ..
    all_goals exact .refl

/-! ### A step -/

/-- What a step keeps of the invariants is what `Keeps` says but for the queue, whose front the step takes. -/
theorem step_keeps {s t : State} (h : step s = .next t) : ∃ rest, Keeps { s with pending := rest } t := by
  have hexec : ∀ i u, exec i u = .next t → Keeps u t := by
    intro i u hu
    obtain ⟨v, hv, hkeeps⟩ := exec_keeps i u
    obtain rfl : v = t := Host.Outcome.next.inj (hv.symm.trans hu)
    exact hkeeps
  unfold step at h
  split at h
  · exact ⟨_, hexec _ _ h⟩
  split at h
  · exact ⟨s.pending, hexec _ _ h⟩
  · obtain rfl := Host.Outcome.next.inj h
    exact ⟨s.pending, tick_keeps s⟩

/-- Settles O3: every arm of `exec` answers a next state and keeps the queue (`exec_keeps`). -/
theorem commandsKeepQueue : Obligations.CommandsKeepQueue := fun i s =>
  let ⟨t, hexec, hkeeps⟩ := exec_keeps i s
  ⟨t, hexec, hkeeps.pending⟩

/-- Settles O5: the grants fit behind the fit rule (`fitTable_fits`), and every change of the draw table keeps its
order. -/
theorem stepKeepsWaterView : Obligations.StepKeepsWaterView := fun _ _ h =>
  let ⟨_, hkeeps⟩ := step_keeps h
  ⟨hkeeps.fits, hkeeps.ordered⟩

/-- Settles O6: the queue stays consistent as notices join it (`putNotices_consistent`), leave it
(`dropHead_consistent`) and are absorbed (`absorbDraw_consistent`). -/
theorem stepKeepsLineOrdered : Obligations.StepKeepsLineOrdered := fun _ _ hline h =>
  let ⟨_, hkeeps⟩ := step_keeps h
  hkeeps.line hline

/-- Settles O7: a slab enters the table only while it is unknown (`recordNew_keeps`), and ids are issued only while
the counter has some left (`keptRegions_length_le`, `issueId_keeps`). -/
theorem stepKeepsStockBounded : Obligations.StepKeepsStockBounded := fun _ _ hstock h =>
  let ⟨_, hkeeps⟩ := step_keeps h
  hkeeps.stock hstock

/-- Settles O8: a job enters the table only while it is unknown (`createJob_keeps`), and a record the log only while it
has room (`offerLog_keeps`). -/
theorem stepKeepsCostBounded : Obligations.StepKeepsCostBounded := fun _ _ hcost h =>
  let ⟨_, hkeeps⟩ := step_keeps h
  hkeeps.cost hcost

/-- Settles O9: a change of the cut state makes the unit consistent (`toCut_consistent`), and a charged segment leaves
a remainder modulo 10,000,000 (`chargeSegment_units`). -/
theorem stepKeepsCutUnit : Obligations.StepKeepsCutUnit := fun _ _ h =>
  let ⟨_, hkeeps⟩ := step_keeps h
  ⟨hkeeps.cut, hkeeps.wear⟩

/-- Settles O10: each counter stops at its greatest value, and shop time returns to 0 behind its own. -/
theorem stepKeepsCountersBounded : Obligations.StepKeepsCountersBounded := fun _ _ hcounters h =>
  let ⟨_, hkeeps⟩ := step_keeps h
  hkeeps.counters hcounters

/-- Settles O4: the tables are empty, the own entry stands alone in the draw table, and the cut state is EMPTY. -/
theorem invariantsAtReset : Obligations.InvariantsAtReset := by
  obtain ⟨hfits, hordered⟩ := ownTable_fits_ordered (t := State.reset) rfl
  refine ⟨hfits, hordered, emptyLine_ordered rfl rfl rfl, ⟨Nat.zero_le _, List.nodup_nil, le_refl _, ?_⟩,
    ⟨Nat.zero_le _, List.nodup_nil, Nat.zero_le _⟩, Nat.zero_lt_succ _, resetCut_consistent rfl rfl rfl rfl,
    ⟨Nat.zero_le _, Nat.zero_le _, Nat.zero_le _, Nat.zero_le _, Nat.zero_le _⟩⟩
  exact show (1 : Nat) ≤ 65536 by decide

end Sys2Proof.Machine
end

section
/-! PROOF. The step and the power-on values, as the definitions give them. -/

namespace Sys2Proof.Machine

/-- Settles O1: the first branch of `step`. -/
theorem stepTakesFront : Obligations.StepTakesFront := fun _ _ _ => rfl

end Sys2Proof.Machine
end

section
/-! PROOF. The output list of the machine port (R183): what a reply and a signal make of it, the frame sent, and the
obligations on both. -/

namespace Sys2Proof.Machine

/-! ### A reply in the list -/

theorem reply_port (c : Cmd) (st : Status) (b : ReplyBody) (s : State) :
    (reply c st b s).port = startTransmit (addReply ⟨replyType (cmdCode c), st, b⟩ s.port) := rfl

/-- With room in the list, or with no signal to displace, a reply is added behind the others. -/
theorem addReply_appends (r : Reply) {p : Port} (h : p.out.length < 16 ∨ p.out.any displaceable = false) :
    addReply r p = { p with out := p.out ++ [⟨.reply r, false, false⟩] } := by
  rcases h with hroom | hnone
  · exact if_pos hroom
  · simp [addReply, hnone]

theorem addReply_displaces (r : Reply) {p : Port} (hfull : 16 ≤ p.out.length)
    (hany : p.out.any displaceable = true) : addReply r p =
      { p with out := p.out.eraseP displaceable ++ [⟨.reply r, false, false⟩], overrun := true } := by
  have hroom : ¬ p.out.length < outMax := Nat.not_lt.mpr hfull
  rw [addReply, if_neg hroom, if_pos hany]

/-- No displaced frame is a reply. -/
theorem reply_mem_eraseP {r : Reply} {es : List OutEntry} (h : PortFrame.reply r ∈ es.map (·.frame)) :
    PortFrame.reply r ∈ (es.eraseP displaceable).map (·.frame) := by
  obtain ⟨e, he, hframe⟩ := List.mem_map.mp h
  have hstays : ¬ displaceable e = true := by simp [displaceable, hframe, isSignal]
  exact List.mem_map.mpr ⟨e, (List.mem_eraseP_of_neg hstays).mpr he, hframe⟩

theorem reply_mem_addReply {q : Reply} (r : Reply) {p : Port} (h : PortFrame.reply q ∈ p.out.map (·.frame)) :
    PortFrame.reply q ∈ (addReply r p).out.map (·.frame) := by
  by_cases hadd : p.out.length < 16 ∨ p.out.any displaceable = false
  · rw [addReply_appends r hadd, List.map_append]
    exact List.mem_append_left _ h
  · rw [not_or, Nat.not_lt, Bool.not_eq_false] at hadd
    rw [addReply_displaces r hadd.1 hadd.2, List.map_append]
    exact List.mem_append_left _ (reply_mem_eraseP h)

/-! ### A signal in the list -/

/-- The entries a signal finds: an earlier WATER has given way to a new one. -/
def keptFor (sg : Signal) (es : List OutEntry) : List OutEntry :=
  if isWater (.signal sg) = true then es.filter fun e => !isWater e.frame else es

theorem emit_port (sg : Signal) (s : State) :
    (emit sg s).port = startTransmit (addSignal (decide (s.boot.runState = .starting)) sg s.port) := rfl

theorem addSignal_appends (starting : Bool) {sg : Signal} {p : Port} (h : (keptFor sg p.out).length < 16) :
    addSignal starting sg p = { p with out := keptFor sg p.out ++ [⟨.signal sg, false, starting⟩] } := if_pos h

theorem addSignal_discards (starting : Bool) {sg : Signal} {p : Port} (h : 16 ≤ (keptFor sg p.out).length) :
    addSignal starting sg p = { p with out := keptFor sg p.out, overrun := true } := if_neg (Nat.not_lt.mpr h)

theorem reply_mem_keptFor {r : Reply} (sg : Signal) {es : List OutEntry} (h : PortFrame.reply r ∈ es.map (·.frame)) :
    PortFrame.reply r ∈ (keptFor sg es).map (·.frame) := by
  unfold keptFor
  split
  · obtain ⟨e, he, hframe⟩ := List.mem_map.mp h
    exact List.mem_map.mpr ⟨e, List.mem_filter.mpr ⟨he, by simp [hframe, isWater]⟩, hframe⟩
  · exact h

theorem emit_frames (sg : Signal) (s : State) :
    (emit sg s).port.out.map (·.frame) = (keptFor sg s.port.out).map (·.frame)
      ++ if (keptFor sg s.port.out).length < 16 then [.signal sg] else [] := by
  rw [emit_port, startTransmit_frames]
  split
  case isTrue h => rw [addSignal_appends _ h]; simp
  case isFalse h => rw [addSignal_discards _ (Nat.not_lt.mp h)]; simp

/-- R183: one WATER at most stays in the list behind a new one. -/
theorem emit_water_once {sg : Signal} (h : isWater (.signal sg) = true) (s : State) :
    ((emit sg s).port.out.filter fun e => isWater e.frame).length ≤ 1 := by
  have hcount : ((emit sg s).port.out.filter fun e => isWater e.frame).length
      = (((emit sg s).port.out.map (·.frame)).filter isWater).length := by
    rw [List.filter_map, List.length_map]; rfl
  have hnone : ((keptFor sg s.port.out).map (·.frame)).filter isWater = [] := by
    rw [keptFor, if_pos h, List.filter_eq_nil_iff]
    rintro _ hf
    obtain ⟨x, hx, rfl⟩ := List.mem_map.mp hf
    simpa using (List.mem_filter.mp hx).2
  rw [hcount, emit_frames, List.filter_append, hnone]
  split
  · exact List.length_filter_le _ _
  · exact Nat.zero_le _

/-- Settles O13: the list behind a reply by `addReply_appends` and `addReply_displaces`, behind a signal by
`addSignal_appends` and `addSignal_discards`. -/
theorem outputListRules : Obligations.OutputListRules := by
  intro s
  refine ⟨fun c st b => ?reply, fun sg => ?signal⟩
  case reply =>
    dsimp only
    simp only [reply_port, startTransmit_frames, startTransmit_fields]
    refine ⟨fun h => ?_, fun hfull hany => ?_, fun r hr => reply_mem_addReply _ hr⟩
    · rw [addReply_appends _ h]; simp
    · rw [addReply_displaces _ hfull hany]; simp
  case signal =>
    dsimp only
    change ((keptFor sg s.port.out).length < 16 → _) ∧ (16 ≤ (keptFor sg s.port.out).length → _) ∧ _ ∧ _
    refine ⟨fun h => ⟨?_, ?_⟩, fun h => ⟨?_, ?_⟩, fun h => emit_water_once h s, fun r hr => ?_⟩
    · rw [emit_frames, if_pos h]; rfl
    · rw [emit_port, addSignal_appends _ h]; simp
    · rw [emit_frames, if_neg (Nat.not_lt.mpr h), List.append_nil]; rfl
    · rw [emit_port, addSignal_discards _ h]; simp
    · rw [emit_frames]
      exact List.mem_append_left _ (reply_mem_keptFor sg hr)

/-! ### The frame sent -/

theorem eraseP_begun {pre post : List OutEntry} {e : OutEntry} (he : e.begun = true)
    (hpre : ∀ x ∈ pre, x.begun = false) : (pre ++ e :: post).eraseP (·.begun) = pre ++ post := by
  rw [List.eraseP_append_right _ fun x hx => by simp [hpre x hx], List.eraseP_cons_of_pos he]

/-- The oldest frame that is not held back begins. -/
theorem beginFirst_of_held {before after : List OutEntry} {x : OutEntry} (h : ∀ y ∈ before, y.held = true)
    (hx : x.held = false) : beginFirst (before ++ x :: after) = before ++ { x with begun := true } :: after := by
  induction before with
  | nil => simp [beginFirst, hx]
  | cons y ys ih =>
    obtain ⟨hy, hys⟩ := List.forall_mem_cons.mp h
    rw [List.cons_append, beginFirst, if_pos hy, ih hys, List.cons_append]

theorem startTransmit_idle {p : Port} (h : ∀ x ∈ p.out, x.held = true) : startTransmit p = p := by
  unfold startTransmit
  rw [if_neg]
  rintro ⟨-, hany⟩
  obtain ⟨x, hx, hfree⟩ := List.any_eq_true.mp hany
  simp [h x hx] at hfree

theorem startTransmit_begins {p : Port} {before after : List OutEntry} {x : OutEntry} (hbusy : p.txBusy = false)
    (hout : p.out = before ++ x :: after) (h : ∀ y ∈ before, y.held = true) (hx : x.held = false) :
    startTransmit p = { p with out := before ++ { x with begun := true } :: after, txBusy := true } := by
  unfold startTransmit
  rw [if_pos ⟨hbusy, by simp [hout, hx]⟩, hout, beginFirst_of_held h hx]

/-- Settles O14: the frame begun leaves the list (`eraseP_begun`), and the first that is not held back begins. -/
theorem outputFrameSent : Obligations.OutputFrameSent := by
  intro s e pre post hbusy hout he hpre
  have hsent : exec .outputFrameSent s = .next { s with
      port := startTransmit { s.port with out := pre ++ post, txBusy := false } } := by
    change Host.Outcome.next { s with port := frameSent s.port } = _
    rw [frameSent, if_pos hbusy, hout, eraseP_begun he hpre]
  refine ⟨fun hheld => ?_, fun before x after hsplit hheld hx => ?_⟩
  · rw [hsent, startTransmit_idle hheld]
  · rw [hsent, startTransmit_begins rfl hsplit hheld hx]

end Sys2Proof.Machine
end

section
/-! PROOF. Fields of one, two and four bytes (R177): what is read where they were written. -/

namespace Sys2Proof.Machine

/-! ### Numbers in bytes -/

@[simp] theorem byte_toNat (n : Nat) : (byte n).toNat = n % 256 := by simp [byte]

theorem byte_toNat_of_lt {n : Nat} (h : n < 256) : (byte n).toNat = n := by rw [byte_toNat, Nat.mod_eq_of_lt h]

@[simp] theorem byte_of_toNat (b : Byte) : byte b.toNat = b := BitVec.ofNat_toNat 8 b

theorem w16_sum {n : Nat} (h : n < 65536) : n % 256 + 256 * (n / 256 % 256) = n := by omega

theorem w32_sum {n : Nat} (h : n < 4294967296) :
    n % 256 + 256 * (n / 256 % 256) + 65536 * (n / 65536 % 256) + 16777216 * (n / 16777216 % 256) = n := by omega

@[simp] theorem w16_length (n : Nat) : (w16 n).length = 2 := rfl

@[simp] theorem w32_length (n : Nat) : (w32 n).length = 4 := rfl

/-! ### Reading at an offset -/

@[simp] theorem rd8_cons_zero (b : Byte) (l : List Byte) : rd8 (b :: l) 0 = b.toNat := rfl

@[simp] theorem rd8_cons_succ (b : Byte) (l : List Byte) (o : Nat) : rd8 (b :: l) (o + 1) = rd8 l o := rfl

theorem rd8_append_left {a : List Byte} (b : List Byte) {o : Nat} (h : o < a.length) : rd8 (a ++ b) o = rd8 a o := by
  rw [rd8, rd8, List.getD_append _ _ _ _ h]

theorem rd8_append_right (a b : List Byte) (o : Nat) : rd8 (a ++ b) (a.length + o) = rd8 b o := by
  rw [rd8, rd8, List.getD_append_right _ _ _ _ (Nat.le_add_right ..), Nat.add_sub_cancel_left]

theorem rd8_drop (l : List Byte) (n o : Nat) : rd8 (l.drop n) o = rd8 l (n + o) := by
  simp [rd8, List.getD_eq_getElem?_getD, List.getElem?_drop]

theorem rd8_take {l : List Byte} {n o : Nat} (h : o < n) : rd8 (l.take n) o = rd8 l o := by
  simp [rd8, List.getD_eq_getElem?_getD, h]

/-- A field of four bytes is read where it stands, behind the fields before it. -/
theorem rd32_w32 (a b : List Byte) {n : Nat} (h : n < 4294967296) : rd32 (a ++ (w32 n ++ b)) a.length = n := by
  have h0 := rd8_append_right a (w32 n ++ b) 0
  have h1 := rd8_append_right a (w32 n ++ b) 1
  have h2 := rd8_append_right a (w32 n ++ b) 2
  have h3 := rd8_append_right a (w32 n ++ b) 3
  rw [Nat.add_zero] at h0
  rw [rd32, h0, h1, h2, h3]
  simpa [w32] using w32_sum h

end Sys2Proof.Machine
end

section
/-! PROOF. What a frame of the machine port meets (R179 to R181): the drop, the six tests of a command, a frame that is
no command, what is received byte by byte, and READY. -/

namespace Sys2Proof.Machine

/-! ### The gate of a command -/

/-- Every command of R185 meets the gate with the fields that test 6 looks at. -/
theorem exec_eq_gate {i : Instr} {c : Cmd} (h : commandOf i = some c) (s : State) :
    ∃ owner : State → State, exec i s = .next (gate c (testedInRange s.cfg i) owner s) := by
  cases i <;> cases h <;> exact ⟨_, rfl⟩

theorem gate_of_test {c : Cmd} {ok : Bool} {s : State} {st : Status} (hopen : outputBlocked s.port = false)
    (h : gateTest c ok s = some st) (owner : State → State) : gate c ok owner s = reply c st .none s := by
  simp only [gate, hopen, h, Bool.false_eq_true, if_false]

theorem gate_of_blocked {s : State} (h : outputBlocked s.port = true) (c : Cmd) (ok : Bool) (owner : State → State) :
    gate c ok owner s = countPortError s := if_pos h

/-- What the first test that applies answers is the reply to the command. -/
theorem exec_of_test {i : Instr} {c : Cmd} {s : State} {st : Status} (h : commandOf i = some c)
    (hopen : outputBlocked s.port = false) (htest : gateTest c (testedInRange s.cfg i) s = some st) :
    exec i s = .next (reply c st .none s) := by
  obtain ⟨owner, hexec⟩ := exec_eq_gate h s
  rw [hexec, gate_of_test hopen htest]

section
variable {c : Cmd} {ok : Bool} {s : State}

theorem gateTest_starting (h : s.boot.runState = .starting) (hc : c ≠ .status) : gateTest c ok s = some .busy :=
  if_pos ⟨h, hc⟩

theorem gateTest_outstanding (h : s.port.outstanding ≠ none) (hc : c ≠ .status) :
    gateTest c ok s = some .busy := by
  unfold gateTest
  split
  · rfl
  · exact if_pos ⟨Option.isSome_iff_ne_none.mpr h, hc⟩

theorem gateTest_configFault (h : s.boot.runState = .configFault) (hidle : s.port.outstanding = none)
    (htaken : takenInFault c = false) : gateTest c ok s = some .wrongState := by
  simp [gateTest, h, hidle, htaken]

/-- In RUNNING and LISTEN-ONLY tests 1 and 4 do not apply. -/
theorem joined_iff (s : State) : s.joined = true ↔ s.boot.runState = .running ∨ s.boot.runState = .listenOnly := by
  simp [State.joined]

theorem gateTest_wrongRole (hjoined : s.joined = true) (hidle : s.port.outstanding = none)
    (hrole : roleAllows c s.role = false) : gateTest c ok s = some .wrongRole := by
  rcases (joined_iff s).mp hjoined with h | h <;> simp [gateTest, h, hidle, hrole]

end

/-- Settles O16: each test in its place among those of `gateTest`. -/
theorem commandTests : Obligations.CommandTests := by
  intro i c s hc hopen
  refine ⟨fun hstate hne => ?starting, fun _ hne hout => ?outstanding, fun hstate hidle h1 h2 h3 => ?fault,
    fun hjoined hidle ⟨r, hr, hne⟩ => ?role, fun hreach hfields => ?fields⟩
  case starting => exact exec_of_test hc hopen (gateTest_starting hstate hne)
  case outstanding => exact exec_of_test hc hopen (gateTest_outstanding hout hne)
  case fault => exact exec_of_test hc hopen (gateTest_configFault hstate hidle (by simp [takenInFault, *]))
  case role => exact exec_of_test hc hopen (gateTest_wrongRole hjoined hidle (by simpa [roleAllows, hr] using hne))
  case fields =>
    obtain ⟨owner, hexec⟩ := exec_eq_gate hc s
    rw [hexec, hfields, gate_badField hreach]

/-! ### A frame that is no command -/

theorem cmdCode_status : cmdCode .status = 1 := rfl

theorem exec_unknownCommandType {type : Byte} {body : List Byte} {s : State}
    (h : portCommand type.toNat body = none) (hopen : outputBlocked s.port = false) :
    exec (.unknownCommandType type body) s = .next (replyNow type.toNat (unknownReply type.toNat s) .none s) := by
  change Host.Outcome.next (takeUnknown type body s) = _
  simp [takeUnknown, h, hopen]

/-- Settles O17: tests 1 and 2 answer BUSY to a type that is not that of STATUS, and test 3 the rest. -/
theorem unknownCommandAnswered : Obligations.UnknownCommandAnswered := by
  intro s
  refine ⟨fun type body hnone hopen => ⟨fun h => ?bad, fun hne h => ?busy⟩, ?ready⟩
  case bad =>
    rw [exec_unknownCommandType hnone hopen]
    rcases h with ⟨hstate, hidle⟩ | rfl
    · simp [unknownReply, hstate, hidle]
    · simp [unknownReply, cmdCode_status]
  case busy =>
    have hcode : type.toNat ≠ cmdCode .status := fun heq => hne (BitVec.eq_of_toNat_eq heq)
    rw [exec_unknownCommandType hnone hopen]
    rcases h with hstate | hout
    · simp [unknownReply, hstate, hcode]
    · simp [unknownReply, Option.isSome_iff_ne_none, hout, hcode]
  case ready =>
    change s.ready = true ↔ _ ∧ _ ∧ s.line.queue.length < queueMax
    simp [State.ready, joined_iff, and_assoc, or_assoc]

/-! ### A frame that is dropped -/

/-- R179: bytes before a start mark are discarded. -/
theorem fromMark_append {skipped frame : List Byte} (h : ∀ b ∈ skipped, b ≠ 0x5A#8) (hf : frame.head? = some 0x5A#8) :
    fromMark (skipped ++ frame) = frame := by
  obtain ⟨tail, rfl⟩ := List.head?_eq_some_iff.mp hf
  rw [fromMark, List.dropWhile_append_of_pos fun b hb => decide_eq_true (h b hb),
    List.dropWhile_cons_of_neg (by simp)]

theorem exec_commandFrameDropped {bytes frame : List Byte} {gap : Bool} {s : State} (hf : fromMark bytes = frame)
    (hne : frame ≠ []) (h : gap = true ∨ portFrameBad frame = true ∨ outputBlocked s.port = true) :
    exec (.commandFrameDropped bytes gap) s = .next (countPortError s) := by
  change Host.Outcome.next (takeDropped bytes gap s) = _
  rw [takeDropped, hf, if_neg hne, if_pos h]

theorem portFrameBad_of_long {l : List Byte} (h : 1024 < rd16 l 1) : portFrameBad l = true := by
  simp [portFrameBad, h]

/-- R179: with every signal in a full list begun, a command frame is turned away. -/
theorem outputBlocked_of_begun {p : Port} (hfull : 16 ≤ p.out.length)
    (h : ∀ e ∈ p.out, isSignal e.frame = true → e.begun = true) : outputBlocked p = true := by
  have hnone : p.out.any displaceable = false := by
    rw [List.any_eq_false]
    intro e he
    simpa [displaceable] using h e he
  rw [outputBlocked, hnone]
  exact Bool.and_eq_true_iff.mpr ⟨decide_eq_true hfull, rfl⟩

/-! ### What is received -/

/-- The event of a frame that has come whole, whatever follows it. -/
theorem portEvents_whole {frame : List Byte} (hhead : frame.head? = some 0x5A#8) (hshort : rd16 frame 1 ≤ 1024)
    (hlen : frame.length = 6 + rd16 frame 1) (rest : List PortByte) :
    portEvents (ungapped frame ++ rest) = frameEvent frame :: portEvents rest := by
  have hends : frameEnds frame = true := by simp [frameEnds, hlen]; omega
  have hpart (n : Nat) (hn : n < frame.length) : frameEnds (frame.take n) = false :=
    frameEnds_take frame n (.inr ⟨hshort, by omega⟩)
  obtain ⟨tail, rfl⟩ := List.head?_eq_some_iff.mp hhead
  rcases List.eq_nil_or_concat tail with rfl | ⟨between, last, rfl⟩
  · simp at hlen; omega
  rw [List.concat_eq_append] at hends hpart ⊢
  refine portEvents_frame _ last between rest rfl (fun n _ hn => ?_) hends
  have := hpart n (by simp at hn ⊢; omega)
  rwa [← List.cons_append, List.take_append_of_le_length hn] at this

theorem frameEvent_of_bad {l : List Byte} (h : portFrameBad l = true) : frameEvent l = .commandFrameDropped l false :=
  if_pos h

section
variable (type : Byte) {body : List Byte}

/-- The layout of R178, its length field in its two bytes. -/
theorem portFrame_eq (body : List Byte) : portFrame type.toNat body =
    0x5A#8 :: byte body.length :: byte (body.length / 256) :: type :: (body
      ++ checkBytes (byte body.length :: byte (body.length / 256) :: type :: body)) := by
  simp [portFrame, w16]

theorem rd16_portFrame (h : body.length ≤ 1024) : rd16 (portFrame type.toNat body) 1 = body.length := by
  rw [portFrame_eq, rd16]
  simpa using w16_sum (Nat.lt_of_le_of_lt h (by decide))

/-- R178, R179: a frame as it is built is read as the command of its type and body. -/
theorem frameEvent_portFrame (h : body.length ≤ 1024) :
    frameEvent (portFrame type.toNat body) = (portCommand type.toNat body).getD (.unknownCommandType type body) := by
  have hread := rd16_portFrame type h
  have htype : rd8 (portFrame type.toNat body) 3 = type.toNat := by rw [portFrame_eq]; rfl
  have hbody : ((portFrame type.toNat body).drop 4).take body.length = body := by
    rw [portFrame_eq]; exact List.take_left' rfl
  have hgood : portFrameBad (portFrame type.toNat body) = false := by
    have hcheck : (((portFrame type.toNat body).drop (4 + body.length)).take 2)
        = checkBytes (((portFrame type.toNat body).drop 1).take (3 + body.length)) := by
      have hcovered : ((portFrame type.toNat body).drop 1).take (3 + body.length)
          = byte body.length :: byte (body.length / 256) :: type :: body := by
        rw [portFrame_eq, Nat.add_comm 3]
        simp only [List.drop_succ_cons, List.drop_zero, List.take_succ_cons]
        rw [List.take_left' rfl]
      rw [hcovered, portFrame_eq, Nat.add_comm 4]
      simp only [List.drop_succ_cons]
      rw [List.drop_left' rfl]
      rfl
    simp [portFrameBad, hread, hcheck, h]
  rw [frameEvent, hgood, hread, htype, hbody, byte_of_toNat]
  cases portCommand type.toNat body <;> rfl

end

/-- Settles O15: a dropped frame is counted (`exec_commandFrameDropped`, `outputBlocked_of_begun`); what is received is
taken a frame at a time (`portEvents_whole`). -/
theorem droppedFrameCounts : Obligations.DroppedFrameCounts := by
  refine ⟨fun s => ⟨fun skipped frame gap hskipped hhead h => ?dropped, fun bytes gap hnone => ?nomark,
    fun i c hc hfull hbegun => ?full⟩, fun rest => ⟨fun skipped h => ?skipped, fun type body h => ?whole,
    fun frame hhead hshort hlen hcheck => ?check, fun lo hi h => ?long, fun part b hhead h => ?gap⟩⟩
  case dropped =>
    refine exec_commandFrameDropped (fromMark_append hskipped hhead) (by rintro rfl; simp at hhead) ?_
    rcases h with h | h | h
    · exact .inl h
    · exact .inr (.inl (portFrameBad_of_long h))
    · exact .inr h
  case nomark =>
    have hmark : fromMark bytes = [] := List.dropWhile_eq_nil_iff.mpr fun b hb => decide_eq_true (hnone b hb)
    change Host.Outcome.next (takeDropped bytes gap s) = _
    rw [takeDropped, if_pos hmark]
  case full =>
    obtain ⟨owner, hexec⟩ := exec_eq_gate hc s
    rw [hexec, gate_of_blocked (outputBlocked_of_begun hfull hbegun)]
    rfl
  case skipped => exact portReceive_skipped skipped rest h
  case whole =>
    have hread := rd16_portFrame type h
    rw [portEvents_whole (by rw [portFrame_eq]; rfl) (hread.trans_le h) ?_ rest, frameEvent_portFrame type h]
    rw [hread, portFrame_eq]
    simp [checkBytes]
    omega
  case check =>
    rw [portEvents_whole hhead hshort hlen rest, frameEvent_of_bad]
    have htake : (frame.drop (4 + rd16 frame 1)).take 2 = frame.drop (4 + rd16 frame 1) :=
      List.take_of_length_le (by rw [List.length_drop]; omega)
    rw [portFrameBad, htake]
    exact Bool.or_eq_true_iff.mpr (.inr (Bool.and_eq_true_iff.mpr
      ⟨decide_eq_true (by omega), decide_eq_true hcheck⟩))
  case long =>
    have hread : rd16 [0x5A#8, lo, hi] 1 = lo.toNat + 256 * hi.toNat := rfl
    rw [← frameEvent_of_bad (portFrameBad_of_long (hread ▸ h))]
    refine portEvents_frame 0x5A#8 hi [lo] rest rfl (fun n _ hn => ?_) ?_
    · exact frameEnds_take [0x5A#8, lo] n (.inl (Nat.lt_succ_of_le hn))
    · simp [frameEnds, hread, h]
  case gap =>
    obtain ⟨more, rfl⟩ := List.head?_eq_some_iff.mp hhead
    refine portEvents_gap _ more b rest rfl fun n _ hn => frameEnds_take _ n ?_
    rcases h with h | ⟨h1, h2⟩
    · exact .inl (Nat.lt_of_le_of_lt hn h)
    · exact .inr ⟨h1, Nat.lt_of_le_of_lt hn h2⟩

end Sys2Proof.Machine
end

section
/-! PROOF. The commands of every role that read and clear: STATUS (R186), the fault record (R198), CLEAR (R196) and
LINE-TEST (R174), with what a station announces itself with (R194, R196). -/

namespace Sys2Proof.Machine

/-! ### STATUS (R186) -/

/-- STATUS meets none of the tests of R180 in any run state. -/
theorem gate_status {s : State} (hopen : outputBlocked s.port = false) (owner : State → State) :
    gate .status true owner s = owner s := by
  simp [gate, hopen, gateTest, takenInFault, roleAllows, cmdRole]

/-- The first element of a list that passes a test, by its position. -/
theorem findIdx?_eq_of_first {α : Type} {p : α → Bool} {l : List α} {k : Nat} {a : α} (hk : l[k]? = some a)
    (ha : p a = true) (hfirst : ∀ (j : Nat) (b : α), j < k → l[j]? = some b → p b = false) :
    l.findIdx? p = some k := by
  obtain ⟨hlt, rfl⟩ := List.getElem?_eq_some_iff.mp hk
  rw [List.findIdx?_eq_some_iff_getElem]
  exact ⟨hlt, ha, fun j hj => by simp [hfirst j _ hj (List.getElem?_eq_getElem (hj.trans hlt))]⟩

/-- R46: the current step is the first that is IN PROGRESS. -/
theorem currentStep_of_first {p : Plan} {k : Nat} {st : PlanStep} (hk : p.steps[k]? = some st)
    (hst : st.status = .inProgress)
    (hfirst : ∀ (j : Nat) (st' : PlanStep), j < k → p.steps[j]? = some st' → st'.status ≠ .inProgress) :
    currentStep p = some (k + 1) := by
  rw [currentStep, findIdx?_eq_of_first hk (by simp [hst]) fun j b hj hb => by simp [hfirst j b hj hb]]
  rfl

theorem currentStep_of_none {p : Plan} (h : ∀ st ∈ p.steps, st.status ≠ .inProgress) : currentStep p = none := by
  rw [currentStep, List.findIdx?_eq_none_iff.mpr fun st hst => by simp [h st hst]]
  rfl

theorem stepDone_succ {p : Plan} {k : Nat} {st : PlanStep} (h : p.steps[k]? = some st) :
    stepDone p (k + 1) = st.doneLength := by
  rw [stepDone, stepAt_succ h]

theorem midStep_iff (c : CutState) : midStep c = true ↔ c = .cutting ∨ c = .suspended := by simp [midStep]

/-- The current step that STATUS shows while one stands granted (log 42). -/
theorem sawStatus_of_current {s : State} {p : Plan} {k : Nat} {st : PlanStep} (hplan : s.plan.plan = some p)
    (hstate : midStep s.cut.state = true) (hcurrent : currentStep p = some (k + 1)) (hk : p.steps[k]? = some st) :
    (sawStatus s).step = some (k + 1) ∧ (sawStatus s).doneLength = st.doneLength := by
  simp [sawStatus, hstate, hplan, hcurrent, stepDone_succ hk]

theorem sawStatus_of_none {s : State}
    (h : midStep s.cut.state = false ∨ ∀ p, s.plan.plan = some p → currentStep p = none) :
    (sawStatus s).step = none ∧ (sawStatus s).doneLength = 0 := by
  have hstep : (if midStep s.cut.state = true then s.plan.plan.bind currentStep else none) = none := by
    rcases h with h | h
    · simp [h]
    · rw [show s.plan.plan.bind currentStep = none from Option.bind_eq_none_iff.mpr h, ite_self]
  simp only [sawStatus, hstep, true_and]
  split
  · contradiction
  · rfl

/-- R132, R197: the report age across the return of shop time to 0 (log 47). -/
theorem reportAge_eq {now : Nat} {r : PlantReport} (hr : r.time ≤ 4294967295) (hnow : now ≤ 4294967295) :
    reportAge now r = if r.time ≤ now then now - r.time else now + 4294967296 - r.time := by
  unfold reportAge
  split <;> omega

/-- Settles O18: STATUS passes every test (`gate_status`), and its groups are read off `fullStatus`, the current step by
`sawStatus_of_current` and `sawStatus_of_none`. -/
theorem statusAnswered : Obligations.StatusAnswered := by
  intro s
  refine ⟨fun hopen => ?answered, ⟨rfl, rfl, rfl, rfl, rfl, rfl⟩,
    ⟨rfl, rfl, rfl, ?outstanding, rfl, rfl, rfl, rfl⟩, ⟨rfl, rfl, rfl, rfl⟩,
    ⟨rfl, rfl, rfl, rfl, rfl, rfl, rfl, rfl, rfl, rfl, rfl, rfl, rfl⟩, fun h => if_neg h, fun h => ?saw,
    fun h => if_neg h, fun h => ?plant⟩
  case answered =>
    have hexec : exec .status s = .next (takeStatus s) := by
      change Host.Outcome.next (gate .status true takeStatus s) = _
      rw [gate_status hopen]
    rw [hexec]
    refine ⟨fun hstate => ?_, fun hstate => ?_, fun hstarting hfault => ?_⟩
    · rw [takeStatus, hstate]
    · rw [takeStatus, hstate]; rfl
    · cases hstate : s.boot.runState
      case starting => exact absurd hstate hstarting
      case configFault => exact absurd hstate hfault
      all_goals rw [takeStatus, hstate]; rfl
  case outstanding => cases hout : s.port.outstanding <;> simp [fullStatus, hout]
  case saw =>
    refine ⟨sawStatus s, if_pos h, rfl, rfl, rfl, rfl, rfl, rfl, rfl, fun hstate p k st hplan hk hst hfirst => ?_,
      fun hnone => sawStatus_of_none ?_⟩
    · exact sawStatus_of_current hplan ((midStep_iff _).mpr hstate) (currentStep_of_first hk hst hfirst) hk
    · rcases hnone with ⟨h1, h2⟩ | hnone
      · exact .inl (Bool.eq_false_iff.mpr fun hmid => ((midStep_iff _).mp hmid).elim h1 h2)
      · exact .inr fun p hp => currentStep_of_none (hnone p hp)
  case plant =>
    refine ⟨plantStatus s, if_pos h, rfl, rfl, rfl, rfl, rfl, rfl, fun hnone => ?_, fun a ha htime hnow => ?_⟩
    · simp [plantStatus, hnone]
    · rw [plantStatus, ha]
      exact congrArg some (reportAge_eq htime hnow)

/-! ### The fault record (R198) -/

theorem flagOf_setFlag (f : FaultFlags) (k k' : FaultKind) :
    flagOf (setFlag f k) k' = if k' = k then true else flagOf f k' := by
  cases k <;> cases k' <;> rfl

theorem flagOf_clearFlags (kinds : Nat) (f : FaultFlags) (k : FaultKind) :
    flagOf (clearFlags kinds f) k = (flagOf f k && !kinds.testBit (faultBit k)) := by
  cases k <;> rfl

theorem raise_faults (k : FaultKind) (d : Nat) (s : State) :
    (raise k d s).boot.faults = setFlag s.boot.faults k
      ∧ (raise k d s).boot.lastFault = some ⟨k, s.boot.shopTime, d⟩ := ⟨rfl, rfl⟩

/-- R180, test 4: CONFIG FAULT takes FAULT-READ, as RUNNING and LISTEN-ONLY do. -/
theorem gate_of_taken {c : Cmd} {s : State} (hopen : outputBlocked s.port = false) (hidle : s.port.outstanding = none)
    (htaken : takenInFault c = true) (hrole : roleAllows c s.role = true)
    (hstate : s.joined = true ∨ s.boot.runState = .configFault) (owner : State → State) :
    gate c true owner s = owner s := by
  rw [joined_iff] at hstate
  rcases hstate with (h | h) | h <;> simp [gate, hopen, gateTest, hidle, h, htaken, hrole]

/-- Settles O22: the flags by `flagOf_setFlag` and `flagOf_clearFlags`. -/
theorem faultRecord : Obligations.FaultRecord := by
  intro s
  refine ⟨fun k d => ⟨?set, fun k' hne => ?others, rfl, fun h => if_pos h, fun h => ?signal⟩,
    fun hopen hidle hstate => ?read, fun kinds hreach => ⟨clearFlags kinds s.boot.faults, ?named, ?ack⟩⟩
  case set => rw [(raise_faults k d s).1, flagOf_setFlag, if_pos rfl]
  case others => rw [(raise_faults k d s).1, flagOf_setFlag, if_neg hne]
  case signal => exact if_neg (Bool.not_eq_true _ ▸ h)
  case read =>
    change Host.Outcome.next (gate .faultRead true takeFaultRead s) = _
    rw [gate_of_taken hopen hidle rfl rfl hstate]
    rfl
  case named => exact flagOf_clearFlags kinds _
  case ack =>
    change Host.Outcome.next (gate .faultAck true (takeFaultAck kinds) s) = _
    rw [gate_of_reaches hreach]
    rfl

/-! ### What a station announces itself with (R194, R196) -/

theorem announceSelf_listenOnly {s : State} (h : s.boot.listenOnly = true) : (announceSelf s).line = s.line := by
  have hqueue : queueNotices .start [entry .restart none, entry .stockAsk none] s = s := by
    simp only [queueNotices, h, if_true]
  simp only [announceSelf, hqueue]
  split
  · rfl
  · simp only [queueDraw, h, if_true]

/-- R108: with no own DRAW waiting and room in the queue an own DRAW joins it. -/
theorem queueDraw_joins {s : State} (p : DrawPurpose) (c : Option Cmd) (h : s.boot.listenOnly = false)
    (hnone : drawWaiting s.line = false) (hroom : s.line.queue.length < queueMax) :
    queueDraw p c s = { s with line := withEntry (drawEntryFor p c s) s.line } := by
  simp only [queueDraw, h, hnone, Bool.false_eq_true, if_false, putNotices_open _ _ _ hroom]

/-- R194: on an empty line RESTART and STOCK-ASK stand first, and behind them the first DRAW of an own request. -/
theorem announceSelf_queue {s : State} (h : s.boot.listenOnly = false) (hqueue : s.line.queue = [])
    (hwaiters : s.line.waiters = []) :
    (announceSelf s).line.queue.map (·.notice)
      = [.restart, .stockAsk] ++ if s.water.ownRequest = 0 then [] else [.draw s.water.ownRequest false 0] := by
  have hstart : (queueNotices .start [entry .restart none, entry .stockAsk none] s).line
      = putNotices .start [entry .restart none, entry .stockAsk none] s.line := queueNotices_line _ _ h
  have hput : (putNotices .start [entry .restart none, entry .stockAsk none] s.line).queue
        = [entry .restart none, entry .stockAsk none]
      ∧ (putNotices .start [entry .restart none, entry .stockAsk none] s.line).waiters = [] := by
    simp [putNotices, hqueue, hwaiters, queueMax]
  obtain ⟨hqueued, hwaiting⟩ := hput
  have hnone : drawWaiting (putNotices .start [entry .restart none, entry .stockAsk none] s.line) = false := by
    rw [drawWaiting, allEntries, hqueued, hwaiting]; rfl
  unfold announceSelf
  dsimp only
  rw [(queueNotices_fields ..).2.2.2.2.2.2.2.2.2.2.2.2.1]
  split
  · rw [hstart, hqueued]; rfl
  · rw [queueDraw_joins _ _ (by simpa using h) (hstart ▸ hnone) (by rw [hstart, hqueued]; decide)]
    simp only [withEntry, hstart, hqueued]
    simp [entry, drawEntryFor]

/-! ### CLEAR (R196) -/

/-- The reply to CLEAR stands between the clearing and the announcement, and changes neither. -/
theorem takeClear_of_holdsNothing {s : State} (h : holdsNothing s = true) :
    takeClear s = announceSelf (reply .clear .ok .none (clearReset s)) := if_pos h

/-- Settles O23: what `clearReset` leaves of each unit, and the announcement by `announceSelf_queue`. -/
theorem clearEmpties : Obligations.ClearEmpties := by
  intro s hreach
  have hexec : exec .clear s = .next (takeClear s) := by
    change Host.Outcome.next (gate .clear true takeClear s) = _
    rw [gate_of_reaches hreach]
  refine ⟨fun hholds => ?holding, fun hnothing => ⟨takeClear s, hexec, ?_⟩⟩
  case holding => rw [hexec, takeClear, if_neg (by simp [hholds])]
  rw [takeClear_of_holdsNothing hnothing]
  have hline : (reply .clear .ok .none (clearReset s)).line = { Line.reset with midFrame := s.line.midFrame } := by
    simp [clearReset, startUnits]
  have hwater : (reply .clear .ok .none (clearReset s)).water = (clearReset s).water := by simp
  have hlisten : (reply .clear .ok .none (clearReset s)).boot.listenOnly = s.boot.listenOnly := by
    simp [clearReset, startUnits]
  simp only [announceSelf_fields, hline]
  simp only [reply_fields]
  refine ⟨rfl, rfl, rfl, rfl, ?water, rfl, rfl, rfl, rfl, rfl, rfl, trivial, fun hl => ?silent, fun hl => ?queue⟩
  case water => rfl
  case silent => rw [announceSelf_listenOnly (hlisten.trans hl), hline]; rfl
  case queue => rw [announceSelf_queue (hlisten.trans hl) (by rw [hline]; rfl) (by rw [hline]; rfl), hwater]

/-! ### LINE-TEST (R174) -/

theorem firstDifference_eq_none {sent back : List Byte} (h : back.take sent.length = sent) :
    firstDifference sent back = none := by
  induction sent generalizing back with
  | nil => rfl
  | cons a as ih =>
    cases back with
    | nil => cases h
    | cons b bs =>
      obtain ⟨rfl, htail⟩ := List.cons.inj h
      rw [firstDifference, if_pos rfl, ih htail]
      rfl

theorem firstDifference_eq_some {sent back : List Byte} {n : Nat} (hn : n < sent.length)
    (hbefore : back.take n = sent.take n) (hat : back[n]? ≠ sent[n]?) : firstDifference sent back = some (n + 1) := by
  induction sent generalizing back n with
  | nil => cases hn
  | cons a as ih =>
    cases back with
    | nil =>
      cases n with
      | zero => rfl
      | succ n => cases hbefore
    | cons b bs =>
      cases n with
      | zero => rw [firstDifference, if_neg fun hab => hat (by simp [hab])]
      | succ n =>
        obtain ⟨rfl, htail⟩ := List.cons.inj hbefore
        rw [firstDifference, if_pos rfl, ih (Nat.lt_of_succ_lt_succ hn) htail hat]
        rfl

@[simp] theorem testFrame_length (station : Nat) : (testFrame station).length = 23 := by
  simp [testFrame, checkBytes]

/-- R159, R174: the line test over, its command answered in the run state it began in. -/
theorem exec_lineTestEnd {s : State} (hstate : s.boot.runState = .loopback)
    (hout : s.port.outstanding = some .lineTest) (received : List Byte) (underWay : Bool) :
    exec (.lineTestEnd ⟨received, underWay⟩) s = .next
      (reply .lineTest (lineTestResult s.station received).1 (lineTestResult s.station received).2
        { s with
          port := { s.port with outstanding := none }
          boot := { s.boot with runState := if s.boot.listenOnly = true then .listenOnly else .running }
          line := { s.line with driving := [], midFrame := underWay } }) := by
  change Host.Outcome.next (if s.boot.runState = .loopback then endLineTest received underWay s else s) = _
  rw [if_pos hstate, endLineTest, hout]
  rfl

/-- Settles O24: the verdict by the first byte that differs (`firstDifference_eq_none`, `firstDifference_eq_some`). -/
theorem lineTest : Obligations.LineTest := by
  intro s
  refine ⟨fun hreach => ?taken, fun hstate hout received underWay => ?ended⟩
  case taken =>
    have hjoined := hreach.2.1
    have hexec : exec .lineTest s = .next (takeLineTest s) := by
      change Host.Outcome.next (gate .lineTest true takeLineTest s) = _
      rw [gate_of_reaches hreach]
    rw [hexec]
    refine ⟨fun hclear => ?_, fun hholds => ?_⟩
    · simp only [takeLineTest, hjoined, hclear, if_true, Bool.true_eq_false, if_false]
      rfl
    · simp only [takeLineTest, hjoined, hholds, Bool.true_eq_false, Bool.false_eq_true, if_false]
  case ended =>
    refine ⟨fun hpass => ?_, fun n hn hbefore hat => ?_⟩ <;> rw [exec_lineTestEnd hstate hout]
    · have hnone : firstDifference (testFrame s.station) received = none := firstDifference_eq_none (by simpa using hpass)
      simp only [lineTestResult, hnone]
    · have hsome : firstDifference (testFrame s.station) received = some (n + 1) :=
        firstDifference_eq_some (by simpa using hn) hbefore hat
      simp only [lineTestResult, hsome]

end Sys2Proof.Machine
end

section
/-! PROOF. The passing of time with nothing waiting (R192, R197): the tick, what is due, and the tick that ends a line
test (R174); the values every unit takes at power-on (R193). -/

namespace Sys2Proof.Machine

/-! ### What is due -/

@[simp] theorem dueTimer_eq_none {t : Option Nat} {i : Instr} : dueTimer t i = none ↔ t ≠ some 0 := by
  simp [dueTimer]

@[simp] theorem dueTimer_eq_some {t : Option Nat} {i j : Instr} : dueTimer t i = some j ↔ t = some 0 ∧ i = j := by
  simp [dueTimer]

@[simp] theorem dueWatch_eq_none {t : List StockEntry} :
    dueWatch t = none ↔ ∀ e ∈ t, ∀ w, e.watch = some w → w.remaining ≠ 0 := by
  simp [dueWatch]

theorem dueWatch_spec {t : List StockEntry} {i : Instr} (h : dueWatch t = some i) :
    ∃ e ∈ t, ∃ w, e.watch = some w ∧ w.remaining = 0 ∧ i = .orphanWatchExpiry e.slab.id := by
  obtain ⟨e, hfind, hi⟩ := Option.map_eq_some_iff.mp h
  have hdue : e.watch.map (·.remaining) = some 0 := by simpa using List.find?_some hfind
  obtain ⟨w, hw, hzero⟩ := Option.map_eq_some_iff.mp hdue
  exact ⟨e, List.mem_of_find?_eq_some hfind, w, hw, hzero, hi.symm⟩

@[simp] theorem dueAge_eq_none {ds : List DrawEntry} : dueAge ds = none ↔ ∀ d ∈ ds, d.age ≠ some 0 := by
  simp [dueAge]

theorem dueAge_spec {ds : List DrawEntry} {i : Instr} (h : dueAge ds = some i) :
    ∃ d ∈ ds, d.age = some 0 ∧ i = .ageTimerExpiry d.station := by
  obtain ⟨d, hfind, hi⟩ := Option.map_eq_some_iff.mp h
  exact ⟨d, List.mem_of_find?_eq_some hfind, by simpa using List.find?_some hfind, hi.symm⟩

theorem inService_of_due {s : State} {i : Instr} (h : dueExpiry s = some i) : s.inService = true := by
  by_contra hoff
  rw [dueExpiry, if_pos (Bool.eq_false_iff.mpr hoff)] at h
  cases h

/-! ### The tick -/

theorem tick_of_joined {s : State} (h : s.joined = true) : tick s = tickTimers (advanceTime s) := by
  have hstate : s.boot.runState ≠ .loopback := by
    rcases (joined_iff s).mp h with h | h <;> simp [h]
  simp [tick, State.inService, h, hstate]

theorem tick_of_idle {s : State} (h : s.inService = false) : tick s = advanceTime s := by
  have hstate : s.boot.runState ≠ .loopback := fun hl => by simp [State.inService, hl] at h
  simp [tick, h, hstate]

theorem tick_of_loopback {s : State} (h : s.boot.runState = .loopback) :
    tick s = loopTimeout (tickTimers (advanceTime s)) := by
  simp [tick, State.inService, h]

/-- The bytes that had come back are fewer than the 23 sent, so the first missing one is where they differ. -/
theorem lineTestResult_bytesBack (n station : Nat) :
    ∃ k, 1 ≤ k ∧ k ≤ 23 ∧ lineTestResult station (bytesBack n station) = (.fail, .position k) := by
  have hshort : Config.loopBytesBack n % 23 < 23 := Nat.mod_lt _ (by decide)
  have hsome := firstDifference_eq_some (sent := testFrame station) (back := bytesBack n station)
    (n := Config.loopBytesBack n % 23) (by simpa using hshort) (by simp [bytesBack])
    (by simpa [bytesBack, eq_comm] using hshort)
  exact ⟨Config.loopBytesBack n % 23 + 1, by omega, by omega, by rw [lineTestResult, hsome]⟩

theorem loopTimeout_eq {s : State} (h : s.port.outstanding = some .lineTest) :
    loopTimeout s = reply .lineTest (lineTestResult s.station (bytesBack s.freeCount s.station)).1
      (lineTestResult s.station (bytesBack s.freeCount s.station)).2
      { s with
        freeCount := s.freeCount + 1
        port := { s.port with outstanding := none }
        boot := { s.boot with runState := if s.boot.listenOnly = true then .listenOnly else .running }
        line := { s.line with driving := [], midFrame := Config.frameUnderWay s.freeCount } } := by
  unfold loopTimeout endLineTest
  rw [h]
  rfl

theorem tick_shopTime (s : State) : (tick s).boot.shopTime = (s.boot.shopTime + 1) % 4294967296 := by
  by_cases hl : s.boot.runState = .loopback
  · rw [tick_of_loopback hl]
    simp [loopTimeout, endLineTest, tickTimers, advanceTime]
  · rw [tick, if_neg hl]
    split <;> rfl

/-- Settles O2: the tick by run state, and what is due by the table of timers. -/
theorem stepPassesTime : Obligations.StepPassesTime := by
  intro s hpending
  refine ⟨fun i hdue => ?due, fun hdue => ?tick, fun hlow => ?time, fun hlast => ?wrap, fun hoff => ?idle,
    fun hjoined => ?joined, fun hl hout => ?loop, ?none, fun i hdue => ?which⟩
  case due => simp [step, hpending, hdue]
  case tick => simp [step, hpending, hdue]
  case time => rw [tick_shopTime]; omega
  case wrap => rw [tick_shopTime, hlast]
  case idle => rw [tick_of_idle hoff]; rfl
  case joined => rw [tick_of_joined hjoined]; rfl
  case loop =>
    obtain ⟨k, hk, hle, hresult⟩ :=
      lineTestResult_bytesBack (tickTimers (advanceTime s)).freeCount (tickTimers (advanceTime s)).station
    rw [tick_of_loopback hl, loopTimeout_eq (by exact hout), hresult]
    refine ⟨by rw [(reply_fields ..).2.2.1]; rfl, by simp, by simp, ⟨k, hk, hle, reply_mem .lineTest _ _ _⟩, ?_, ?_⟩
    · simp [tickTimers, advanceTime, countDown]
    · simp [tickTimers, advanceTime, countDown]
  case none => unfold dueExpiry; split <;> simp_all
  case which =>
    have hon := inService_of_due hdue
    refine ⟨hon, ?_⟩
    rw [dueExpiry, if_neg (by simp [hon])] at hdue
    simp only [Option.or_eq_some_iff, dueTimer_eq_some] at hdue
    rcases hdue with ⟨ht, rfl⟩ | ⟨-, hw | ⟨-, ⟨ht, rfl⟩ | ⟨-, ⟨ht, rfl⟩ | ⟨-, ha | ⟨-, ⟨ht, rfl⟩ | ⟨-, ⟨ht, rfl⟩ | ⟨-, ht, rfl⟩⟩⟩⟩⟩⟩⟩
    · exact .inl ⟨rfl, ht⟩
    · exact .inr (.inl (dueWatch_spec hw))
    · simp [ht]
    · simp [ht]
    · obtain ⟨d, hd, hage, hi⟩ := dueAge_spec ha
      exact .inr (.inr (.inr (.inr (.inl ⟨d, hd, hage, hi⟩))))
    · simp [ht]
    · simp [ht]
    · simp [ht]

/-! ### Power-on -/

/-- Settles O25: the arm of POWER-ON is the state the obligation spells out. -/
theorem powerOnResets : Obligations.PowerOnResets := fun _ => rfl

end Sys2Proof.Machine
end

section
/-! PROOF. The configuration record (R193 to R195): the first field found wrong, and the epoch written into a record
with its sum adjusted. -/

namespace Sys2Proof.Machine

/-! ### The first entry that fails, in a list of checks in order of offset -/

theorem firstFailing_eq_none {cs : List (Nat × Bool)} :
    (cs.find? fun c => !c.2).map (·.1) = none ↔ ∀ c ∈ cs, c.2 = true := by simp

theorem firstFailing_eq_some {cs : List (Nat × Bool)} (hcs : cs.Pairwise fun a b => a.1 < b.1) {o : Nat} :
    (cs.find? fun c => !c.2).map (·.1) = some o
      ↔ (∃ c ∈ cs, c.1 = o ∧ c.2 = false) ∧ ∀ c ∈ cs, c.1 < o → c.2 = true := by
  induction cs with
  | nil => simp
  | cons a cs ih =>
    obtain ⟨hfirst, hrest⟩ := List.pairwise_cons.mp hcs
    cases ha : a.2 with
    | false =>
      rw [List.find?_cons_of_pos (by simp [ha])]
      constructor
      · intro h
        obtain rfl : a.1 = o := Option.some.inj h
        refine ⟨⟨a, List.mem_cons_self, rfl, ha⟩, fun c hc hlt => ?_⟩
        rcases List.mem_cons.mp hc with rfl | hc
        · exact absurd hlt (Nat.lt_irrefl _)
        · exact absurd hlt (Nat.not_lt.mpr (Nat.le_of_lt (hfirst c hc)))
      · rintro ⟨⟨c, hc, rfl, -⟩, hbefore⟩
        rcases List.mem_cons.mp hc with rfl | hc
        · rfl
        · rw [hbefore a List.mem_cons_self (hfirst c hc)] at ha
          cases ha
    | true =>
      rw [List.find?_cons_of_neg (by simp [ha]), ih hrest]
      simp [ha]

/-! ### The checks of a record -/

theorem within_iff (lo n hi : Nat) : within lo n hi = true ↔ lo ≤ n ∧ n ≤ hi := by simp [within]

theorem recordChecks_ordered (l : List Byte) : (recordChecks l).Pairwise fun a b => a.1 < b.1 := by
  rw [← List.pairwise_map (R := (· < ·)) (f := Prod.fst)]
  exact of_decide_eq_true rfl

theorem mem_bladeTypes (t : Nat) : t ∈ bladeTypes ↔ t < 8 := by
  simp only [bladeTypes, List.mem_cons, List.not_mem_nil, or_false]
  omega

/-! ### Setting the epoch (R195) -/

theorem rd8_set (l : List Byte) {i : Nat} (b : Byte) (o : Nat) (h : i < l.length) :
    rd8 (l.set i b) o = if i = o then b.toNat else rd8 l o := by
  unfold rd8
  split
  · next heq =>
    subst heq
    simp [h]
  · next hne => simp [List.getD_eq_getElem?_getD, hne]

/-- One entry replaced changes a sum by what it gains and loses. -/
theorem sum_set_add {l : List Nat} {i : Nat} (h : i < l.length) (x : Nat) : (l.set i x).sum + l.getD i 0 = l.sum + x := by
  induction l generalizing i with
  | nil => cases h
  | cons a l ih =>
    cases i with
    | zero => simp only [List.set_cons_zero, List.sum_cons, List.getD_cons_zero]; omega
    | succ i =>
      have := ih (Nat.lt_of_succ_lt_succ h)
      simp only [List.set_cons_succ, List.sum_cons, List.getD_cons_succ]
      omega

theorem byteSum_set {l : List Byte} {i : Nat} (h : i < l.length) (b : Byte) :
    ((l.set i b).map BitVec.toNat).sum + rd8 l i = (l.map BitVec.toNat).sum + b.toNat := by
  have := sum_set_add (l := l.map BitVec.toNat) (by simpa using h) b.toNat
  rwa [← List.map_set, show (l.map BitVec.toNat).getD i 0 = rd8 l i from List.getD_map (d := 0#8) ..] at this

theorem rd8_lt (l : List Byte) (o : Nat) : rd8 l o < 256 := (l.getD o 0#8).isLt

/-- Settles O29: the sum of the first 254 bytes gains and loses what the two epoch bytes do (`byteSum_set`). -/
theorem epochKeepsSum : Obligations.EpochKeepsSum := by
  intro l e hlen he
  let set := (l.set 198 (byte e)).set 199 (byte (e / 256))
  have hset : set.length = 256 := by simp [set, hlen]
  have hread (o : Nat) (b b' : Byte) : rd8 ((set.set 254 b).set 255 b') o =
      if 255 = o then b'.toNat else if 254 = o then b.toNat else rd8 set o := by
    rw [rd8_set _ _ _ (by simp [hset]), rd8_set _ _ _ (by omega)]
  have hold (o : Nat) : rd8 set o =
      if 199 = o then e / 256 % 256 else if 198 = o then e % 256 else rd8 l o := by
    rw [rd8_set _ _ _ (by simp [hlen]), rd8_set _ _ _ (by omega), byte_toNat, byte_toNat]
  refine ⟨?epoch, ?sum, fun i h198 h199 h254 h255 => ?others⟩
  case epoch =>
    simp only [rd16, withEpoch]
    rw [hread, hread, hold, hold]
    simp only [Nat.reduceEqDiff, if_true, if_false, Nat.reduceAdd]
    omega
  case sum =>
    have hfirst : ((set.take 254).map BitVec.toNat).sum + rd8 l 198 + rd8 l 199
        = ((l.take 254).map BitVec.toNat).sum + e % 256 + e / 256 % 256 := by
      have h198 := byteSum_set (l := l.take 254) (i := 198) (by simp [hlen]) (byte e)
      have h199 := byteSum_set (l := (l.take 254).set 198 (byte e)) (i := 199) (by simp [hlen]) (byte (e / 256))
      rw [rd8_take (by omega), byte_toNat] at h198
      rw [rd8_set _ _ _ (by simp [hlen]), if_neg (by omega), rd8_take (by omega), byte_toNat] at h199
      simp only [set, List.take_set]
      omega
    have htake (b b' : Byte) : ((set.set 254 b).set 255 b').take 254 = set.take 254 := by
      rw [List.take_set_of_le (by omega), List.take_set_of_le (by omega)]
    have h198 := rd8_lt l 198
    have h199 := rd8_lt l 199
    have h254 := rd8_lt l 254
    have h255 := rd8_lt l 255
    simp only [rd16, recordSum, withEpoch]
    rw [hread, hread, htake]
    simp only [Nat.reduceEqDiff, if_true, if_false, Nat.reduceAdd, byte_toNat]
    omega
  case others => simp [withEpoch, h198.symm, h199.symm, h254.symm, h255.symm]

end Sys2Proof.Machine
end

section
/-! PROOF. Start-up (R192 to R195): AUTOLOAD, the end of the epoch's write-back, and CONFIG-WRITE. -/

namespace Sys2Proof.Machine

/-! ### CONFIG FAULT -/

theorem exec_autoload {s : State} (h : s.boot.phase = .reading) (at? : Option Nat) :
    exec (.autoload at?) s = .next (recordRead at? s) := by
  change execAutoload at? s = _
  rw [execAutoload, h]

theorem answer_outstanding (st : Status) (b : ReplyBody) (s : State) :
    (answer s.port.outstanding st b s).port.outstanding = none := by
  unfold answer
  split
  · assumption
  · simp

/-- R193 to R195: what CONFIG FAULT is entered with. -/
theorem enterConfigFault_enters (k : FaultKind) (detail : Nat) (s : State) :
    (enterConfigFault k detail s).boot = { s.boot with
        runState := .configFault, phase := .none, faults := setFlag s.boot.faults k
        lastFault := some ⟨k, s.boot.shopTime, detail⟩ }
      ∧ (enterConfigFault k detail s).port.outstanding = none := by
  refine ⟨?_, answer_outstanding _ _ _⟩
  unfold enterConfigFault
  rw [(answer_fields ..).2.2.1]
  rfl

/-! ### AUTOLOAD -/

/-- Settles O26: the first wrong field by `firstFailing_eq_some`, each check read as the range of its field. -/
theorem autoloadChecks : Obligations.AutoloadChecks := by
  refine ⟨fun s hphase hstarting => ⟨fun a => ?acknowledge, fun o hwrong => ?wrong, fun hright => ?right⟩, ?fields⟩
  case acknowledge =>
    obtain ⟨hboot, hout⟩ := enterConfigFault_enters .configRead a s
    refine ⟨_, exec_autoload hphase _, ?_⟩
    simp [recordRead, hboot, hout, setFlag]
  case wrong =>
    obtain ⟨hboot, hout⟩ := enterConfigFault_enters .configBad o s
    refine ⟨_, exec_autoload hphase _, ?_⟩
    simp [recordRead, hwrong, hboot, hout, setFlag]
  case right =>
    dsimp only
    rw [exec_autoload hphase]
    simp only [recordRead, hright]
    rfl
  case fields =>
    intro l blade good
    have hblade (t o : Nat) : (∀ c ∈ bladeChecks l t, c.1 = o → c.2 = true) ↔ blade t o := by
      simp only [bladeChecks, List.forall_mem_cons, within_iff, Bool.and_eq_true, decide_eq_true_eq]
      simp only [bladeTypeAt, bladeOffset, or_imp, eq_comm (b := o), and_assoc, blade]
      simp +contextual
    have hgood (o : Nat) : (∀ c ∈ recordChecks l, c.1 = o → c.2 = true) ↔ good o := by
      simp only [recordChecks, List.forall_mem_append, List.forall_mem_flatMap, hblade, mem_bladeTypes, List.forall_mem_cons,
        within_iff, Bool.and_eq_true, decide_eq_true_eq, List.all_eq_true]
      simp only [recordSum, bladeTypeAt, bladeOffset, or_imp, eq_comm (b := o), and_assoc, good]
      simp +contextual
    constructor
    · rw [firstWrong, firstFailing_eq_none]
      exact ⟨fun h o => (hgood o).mp fun c hc _ => h c hc, fun h c hc => (hgood c.1).mpr (h c.1) c hc rfl⟩
    · intro o
      rw [firstWrong, firstFailing_eq_some (recordChecks_ordered l), ← hgood o]
      constructor
      · rintro ⟨⟨c, hc, hco, hfalse⟩, hbefore⟩
        exact ⟨fun h => by simp [h c hc hco] at hfalse,
          fun o' ho' => (hgood o').mp fun c hc hco => hbefore c hc (hco ▸ ho')⟩
      · rintro ⟨hbad, hbefore⟩
        refine ⟨?_, fun c hc hlt => (hgood c.1).mpr (hbefore c.1 hlt) c hc rfl⟩
        by_contra hnone
        exact hbad fun c hc hco => by
          by_contra hfalse
          exact hnone ⟨c, hc, hco, Bool.eq_false_iff.mpr hfalse⟩

/-! ### The end of the epoch's write-back -/

theorem exec_epochWriteBack {s : State} {record : ConfigRecord} {epoch : Nat} (h : s.boot.phase = .writingEpoch record epoch)
    (result : EpochWrite) : exec (.epochWriteBack result) s = .next (epochWritten result record epoch s) := by
  change execEpochWriteBack result s = _
  rw [execEpochWriteBack, h]

/-- R156: the mark as the station enters service. -/
theorem rearm_armed (s : State) : (rearm s).cost = { s.cost with armed := decide (s.cost.log.length < s.cfg.logThreshold) } := by
  unfold rearm
  split
  · next h => simp [h]
  · next h => simp [h]

/-- The station as it joins the line with the record and the epoch in force, before it announces itself. -/
def entering (underWay : Bool) (record : ConfigRecord) (epoch : Nat) (s : State) : State :=
  joinLine underWay (rearm (startUnits (endStarting (joinedState s.boot.listenOnly)
    { s with
      boot := { s.boot with eeprom := withEpoch s.boot.eeprom epoch, config := some record, epoch := epoch }
      cut := cutInRole record.role s.cut })))

theorem epochWritten_confirmed (underWay : Bool) (record : ConfigRecord) (epoch : Nat) (s : State) :
    epochWritten (.confirmed underWay) record epoch s =
      answer (entering underWay record epoch s).port.outstanding .ok
        (.runState (entering underWay record epoch s).boot.runState) (announceSelf (entering underWay record epoch s)) :=
  rfl

theorem entering_units (underWay : Bool) (record : ConfigRecord) (epoch : Nat) (s : State) :
    (entering underWay record epoch s).boot = { s.boot with
        eeprom := withEpoch s.boot.eeprom epoch, config := some record, epoch := epoch
        runState := joinedState s.boot.listenOnly, phase := .none }
      ∧ (entering underWay record epoch s).cost
        = { s.cost with armed := decide (s.cost.log.length < record.logThreshold) }
      ∧ (entering underWay record epoch s).stock = s.stock
      ∧ (entering underWay record epoch s).cut = cutInRole record.role s.cut
      ∧ (entering underWay record epoch s).plant
        = { Plant.reset with reportTimer := if record.role = .plant then some 300 else none }
      ∧ (entering underWay record epoch s).water = { Water.reset record.station with
          capacity := record.fallback, plantHeard := some 350, refresh := some 100
          ownRequest := if record.role = .saw then if s.cut.parked = true then 0
            else min (record.blades.getD s.cut.blade.type BladeType.blank).q record.drawCeiling else 0 } := by
  unfold entering
  refine ⟨by simp [startUnits, endStarting], rearm_armed _, by simp [startUnits, endStarting],
    by simp [startUnits, endStarting], by simp [startUnits, endStarting]; rfl, ?_⟩
  by_cases hrole : record.role = .saw <;>
    simp [startUnits, endStarting, freshWater, workRequest, cutInRole, hrole, State.role, State.cfg, State.station, State.bladeType]

theorem entering_line (underWay : Bool) (record : ConfigRecord) (epoch : Nat) {s : State} (h : s.line = Line.reset) :
    (entering underWay record epoch s).line = { Line.reset with midFrame := underWay } := by
  simp [entering, joinLine, startUnits, endStarting, h]

/-- Settles O27: the units as `enterService` starts them, and the announcement by `announceSelf_queue`. -/
theorem epochWrittenBack : Obligations.EpochWritten := by
  intro s record epoch underWay hphase hstarting
  refine ⟨fun hline => ⟨_, exec_epochWriteBack hphase _, ?_⟩, fun result hfailed => ⟨_, exec_epochWriteBack hphase _, ?_⟩⟩
  · obtain ⟨hboot, hcost, hstock, hcut, hplant, hwater⟩ := entering_units underWay record epoch s
    have hmid := entering_line underWay record epoch hline
    have hout : (announceSelf (entering underWay record epoch s)).port.outstanding
        = (entering underWay record epoch s).port.outstanding := by simp
    have hqueue : (announceSelf (entering underWay record epoch s)).line.queue.map (·.notice) =
        if s.boot.listenOnly = true then [] else [.restart, .stockAsk] ++
          if (entering underWay record epoch s).water.ownRequest = 0 then []
          else [.draw (entering underWay record epoch s).water.ownRequest false 0] := by
      split
      · next hl => rw [announceSelf_listenOnly (by rw [hboot]; exact hl), hmid]; rfl
      · next hl =>
        exact announceSelf_queue (by rw [hboot]; exact Bool.eq_false_iff.mpr hl) (by rw [hmid]; rfl) (by rw [hmid]; rfl)
    rw [epochWritten_confirmed, ← hout, answer_outstanding]
    simp only [answer_fields, hqueue, announceSelf_fields, hboot, hcost, hstock, hcut, hplant, hwater, hmid, true_and, and_true]
    exact ⟨rfl, rfl, rfl⟩
  · have hfault : epochWritten result record epoch s = enterConfigFault .epochWrite epoch
        { s with
          freeCount := s.freeCount + 1
          boot := { s.boot with eeprom := eitherEpoch s.freeCount s.boot.eeprom epoch } } := by
      rcases hfailed with rfl | rfl <;> rfl
    obtain ⟨hboot, -⟩ := enterConfigFault_enters .epochWrite epoch
      { s with
        freeCount := s.freeCount + 1
        boot := { s.boot with eeprom := eitherEpoch s.freeCount s.boot.eeprom epoch } }
    rw [hfault, hboot]
    refine ⟨rfl, rfl, rfl, ?_, rfl, rfl⟩
    dsimp only
    unfold eitherEpoch
    split
    · exact .inr rfl
    · exact .inl rfl

/-! ### CONFIG-WRITE -/

/-- Settles O28: CONFIG-WRITE past the tests of R180, and the end of the record's writing by its phase. -/
theorem configWritten : Obligations.ConfigWritten := by
  intro s
  have htake {record : List Byte} (hlen : record.length = 256)
      (hgate : ∀ owner : State → State, gate .configWrite true owner s = owner s) :
      exec (.configWrite record) s = .next (takeConfigWrite record s) := by
    change Host.Outcome.next (gate .configWrite (decide (record.length = 256)) (takeConfigWrite record) s) = _
    rw [decide_eq_true hlen, hgate]
  have hwrite {bytes : List Byte} (hphase : s.boot.phase = .writingRecord bytes) (at? : Option Nat) :
      exec (.configRecordWrite at?) s = .next (recordWritten at? bytes s) := by
    change execConfigRecordWrite at? s = _
    rw [execConfigRecordWrite, hphase]
  refine ⟨fun record hlen htaken => ?taken, fun record hlen hreach hholds => ?refused, fun bytes hphase => ?written,
    fun bytes a hphase hstarting => ?failed⟩
  case taken =>
    have hexec : exec (.configWrite record) s = .next (keep .configWrite (rewriteReset record s)) := by
      rcases htaken with ⟨hfault, hidle, hopen⟩ | ⟨hreach, hnothing⟩
      · rw [htake hlen fun owner => gate_of_taken hopen hidle rfl rfl (.inr hfault) owner, takeConfigWrite, if_pos (.inl hfault)]
      · rw [htake hlen fun owner => gate_of_reaches hreach owner, takeConfigWrite, if_pos (.inr hnothing)]
    refine ⟨_, hexec, rfl, rfl, rfl, rfl, rfl, rfl, rfl, rfl, rfl⟩
  case refused =>
    have hstate : s.boot.runState ≠ .configFault := by
      rcases (joined_iff s).mp hreach.2.1 with h | h <;> simp [h]
    rw [htake hlen fun owner => gate_of_reaches hreach owner, takeConfigWrite, if_neg (by simp [hstate, hholds])]
  case written => rw [hwrite hphase]; rfl
  case failed =>
    obtain ⟨hboot, -⟩ := enterConfigFault_enters .configRead a
      { s with freeCount := s.freeCount + 1, boot := { s.boot with eeprom := brokenRecord s.freeCount } }
    refine ⟨_, hwrite hphase _, ?_⟩
    rw [recordWritten, hboot]
    exact ⟨rfl, rfl, by simp [brokenRecord]⟩

end Sys2Proof.Machine
end

section
/-! PROOF. The commands that place a notice of a slab or a job on the line: CLAIM (R11), RELEASE, LOAD and UNLOAD (R17
to R20), and those of a console (R10, R24, R25, R124, R149, R150). -/

namespace Sys2Proof.Machine

/-- A command past every test of R180 is its owner's. -/
theorem next_gate {c : Cmd} {s : State} {ok : Bool} (hok : ok = true) (h : Reaches c s) (owner : State → State) :
    Host.Outcome.next (gate c ok owner s) = (.next (owner s) : Host.Outcome State Fault Refusal) := by
  rw [hok, gate_of_reaches h]

/-! ### CLAIM (R11) -/

theorem heldBy_iff (n : Nat) (r : SlabRecord) :
    heldBy n r = true ↔ (r.state = .claimed ∨ r.state = .loaded) ∧ r.holder = some n := by
  cases hstate : r.state <;> simp [heldBy, showsHeld, hstate]

theorem claimable_iff (own priority : Nat) (r : SlabRecord) :
    claimable own priority r = true ↔ r.state = .free
      ∨ (r.state = .claimed ∧ r.holder ≠ some own ∧ r.priority.getD 0 < priority)
      ∨ ((r.state = .claimed ∨ r.state = .loaded) ∧ r.holder = some own) := by
  simp [claimable, heldBy_iff, or_assoc, and_assoc]

theorem claimJobCheck_eq (s : State) (job : Nat) : claimJobCheck s.cost.jobs job =
    if ∃ e, s.jobEntry job = some e ∧ e.state = .closed then some .jobClosed
    else if s.jobEntry job = none ∧ jobRoom s.cost.jobs = 0 then some .full else none := by
  unfold claimJobCheck State.jobEntry
  cases findJob s.cost.jobs job <;> simp

/-- Settles O30: the checks of `claimRefusal` in their order, and what `queueCommand` does with the notice. -/
theorem claimQueued : Obligations.ClaimQueued := by
  intro id job priority s hreach hid hjob
  have hexec : exec (.claim id job priority) s = .next (takeClaim id job priority s) :=
    next_gate (by rw [hid, hjob]; rfl) hreach _
  rw [hexec]
  refine ⟨fun r hopen hcut hslab hfree hnone hjobs => ?queued, ?checks⟩
  case queued =>
    have hclaimable : claimable s.station (clampPriority priority) r = true :=
      (claimable_iff ..).mpr (hfree.imp_right .inl)
    have hcheck : claimJobCheck s.cost.jobs job = none := by
      rw [claimJobCheck_eq]
      rcases hjobs with ⟨e, he, hstate⟩ | ⟨he, hroom⟩
      · simp [he, hstate]
      · simp [he, hroom]
    have hrefusal : claimRefusal id job priority s = none := by
      simp [claimRefusal, hcut, hslab, hclaimable, hnone, hcheck]
    simp only [takeClaim, hrefusal, hslab]
    rw [queueCommand_open _ _ _ hopen]
    rfl
  case checks =>
    unfold takeClaim claimRefusal
    by_cases hcut : s.cut.state = .splitting
    · simp only [hcut, if_true]
    simp only [hcut, if_false]
    cases hslab : s.slab id with
    | none => rfl
    | some r =>
      simp only [← claimable_iff]
      by_cases hclaimable : claimable s.station (min priority 7) r = true
      · by_cases hholds : holdsSlab s = true
        · simp only [clampPriority, hclaimable, hholds, not_true_eq_false, if_true, if_false, Bool.true_eq_false]
        · simp only [clampPriority, hclaimable, hholds, not_true_eq_false, if_false, Bool.true_eq_false, Bool.false_eq_true,
            claimJobCheck_eq]
          by_cases hclosed : ∃ e, s.jobEntry job = some e ∧ e.state = .closed
          · simp only [if_pos hclosed]
          · by_cases hfull : s.jobEntry job = none ∧ jobRoom s.cost.jobs = 0
            · simp only [if_neg hclosed, if_pos hfull]
            · simp only [if_neg hclosed, if_neg hfull]
              rw [queueCommand_placed]
              rfl
      · simp only [clampPriority, Bool.eq_false_iff.mpr hclaimable, Bool.false_eq_true, not_false_eq_true, if_true]

/-! ### RELEASE, LOAD and UNLOAD (R17, R18, R20) -/

theorem claimedBy_iff (n : Nat) (r : SlabRecord) : claimedBy n r = true ↔ r.state = .claimed ∧ r.holder = some n := by
  simp [claimedBy]

theorem loadedBy_iff (n : Nat) (r : SlabRecord) : loadedBy n r = true ↔ r.state = .loaded ∧ r.holder = some n := by
  simp [loadedBy]

theorem onOwnClaim_eq (c : Cmd) (id : SlabId) (notice : SlabRecord → Notice) (s : State) :
    onOwnClaim c id notice s = match s.slab id with
      | none => reply c .unknown .none s
      | some r => if r.state = .claimed ∧ r.holder = some s.station then Placed c (notice r) s
          else reply c .wrongState .none s := by
  unfold onOwnClaim
  cases s.slab id with
  | none => rfl
  | some r => simp only [claimedBy_iff, queueCommand_placed]

theorem uncut_iff (s : State) : uncut s = true ↔ ∀ p, s.plan.plan = some p → cutBegun p = false := by
  unfold uncut
  cases s.plan.plan <;> simp

theorem unloadable_iff (s : State) : unloadable s = true ↔ s.cut.state = .loaded ∨ s.cut.state = .staging
    ∨ (s.cut.state = .planned ∧ ∀ p, s.plan.plan = some p → cutBegun p = false) := by
  simp [unloadable, uncut_iff, or_assoc]

theorem takeUnload_of_loaded {s : State} {r : SlabRecord} (hheld : s.heldSlab = some r)
    (hloaded : r.state = .loaded ∧ r.holder = some s.station) (hcut : unloadable s = true) :
    takeUnload s = Placed .unload (.free .unloaded r.version (freedRecord r)) s := by
  simp only [takeUnload, hheld, (loadedBy_iff ..).mpr hloaded, hcut, and_self, if_true, queueCommand_placed]

theorem takeUnload_refused {s : State}
    (h : ∀ r, s.heldSlab = some r → ¬ (loadedBy s.station r = true ∧ unloadable s = true)) :
    takeUnload s = reply .unload .wrongState .none s := by
  unfold takeUnload
  cases hheld : s.heldSlab with
  | none => rfl
  | some r => exact if_neg (h r hheld)

/-- Settles O31: RELEASE and LOAD by `onOwnClaim_eq`, UNLOAD by whether the cut state allows it (`unloadable_iff`). -/
theorem ownSlabCommands : Obligations.OwnSlabCommands := by
  intro s
  refine ⟨fun id hid hreach => ?release, fun id hid hreach => ?load, fun r hreach hheld hstate hholder hcut => ?unload,
    fun hreach hcut => ?cutting, fun hreach hnone => ?other⟩
  case release =>
    have hexec : exec (.release id) s = .next (takeRelease id s) := next_gate hid hreach _
    rw [hexec, takeRelease, onOwnClaim_eq]
    rfl
  case load =>
    have hexec : exec (.load id) s = .next (takeLoad id s) := next_gate hid hreach _
    rw [hexec, takeLoad, onOwnClaim_eq]
    rfl
  all_goals have hexec : exec .unload s = .next (takeUnload s) := next_gate rfl hreach _
  case unload => rw [hexec, takeUnload_of_loaded hheld ⟨hstate, hholder⟩ ((unloadable_iff s).mpr hcut)]; rfl
  case cutting =>
    have hno : ¬ unloadable s = true := by
      rw [unloadable_iff]
      rcases hcut with h | h | h | ⟨h, p, hp, hbegun⟩
      · simp [h]
      · simp [h]
      · simp [h]
      · simp [h, hp, hbegun]
    rw [hexec, takeUnload_refused fun r _ hr => hno hr.2]
  case other =>
    rw [hexec, takeUnload_refused]
    rintro r hheld ⟨hloaded, hcut⟩
    rw [unloadable_iff] at hcut
    rcases hnone with h | h | h
    · simp [h] at hcut
    · simp [h] at hcut
    · exact h r hheld ((loadedBy_iff ..).mp hloaded)

/-! ### YARD-IN (R10) -/

theorem stockBlocked_iff (t : List StockEntry) :
    stockBlocked t = true ↔ 200 ≤ t.length ∧ ∀ e ∈ t, e.slab.state ≠ .cut ∧ e.slab.state ≠ .scrapped := by
  change (decide (200 ≤ t.length) && !t.any fun x => isHistory x.slab) = true ↔ _
  simp [isHistory]

theorem canQueue_iff (s : State) : canQueue s = true ↔ QueueOpen s := by simp [canQueue, QueueOpen]

/-- Settles O42: room, then ids, then the line, each branch of `takeYardIn` taken by its condition. -/
theorem yardInIssued : Obligations.YardInIssued := by
  intro cls thickness length width value defects s hreach hok
  have hexec : exec (.yardIn cls thickness length width defects value) s
      = .next (takeYardIn cls thickness length width defects value s) := next_gate hok hreach _
  rw [hexec]
  refine ⟨fun hfull hlive => ?full, fun hroom => ?_⟩
  case full => rw [takeYardIn, if_pos ((stockBlocked_iff _).mpr ⟨hfull, hlive⟩)]
  have hfree : ¬ stockBlocked s.stock.table = true := by
    rw [stockBlocked_iff]
    rintro ⟨hfull, hlive⟩
    rcases hroom with h | ⟨e, he, hfinal⟩
    · omega
    · exact hfinal.elim (hlive e he).1 (hlive e he).2
  have htake (hids : s.stock.seqNext ≤ 65535) : takeYardIn cls thickness length width defects value s =
      queueCommand .yardIn (.yardIn (yardRecord (nextId s) cls thickness length width defects value))
        (if canQueue s = true then issueId s else s) := by
    rw [takeYardIn, if_neg hfree, if_neg (by simp [idsExhausted, hids])]
  refine ⟨fun hids => ?exhausted, fun hids hlisten => ?silent, fun hids hline hqueue => ?lineFull, fun hids hopen => ?issued⟩
  case exhausted => rw [takeYardIn, if_neg hfree, if_pos (by simp [idsExhausted, hids])]
  case silent =>
    rw [htake hids, if_neg (by simp [canQueue, hlisten]), queueCommand_silent _ _ _ hlisten]
  case lineFull =>
    have hmax : queueMax = 12 := rfl
    rw [htake hids, if_neg (by rw [canQueue_iff]; rintro ⟨_, hlt⟩; omega), queueCommand_full _ _ _ hline hqueue]
  case issued =>
    rw [htake hids, if_pos ((canQueue_iff s).mpr hopen), queueCommand_open _ _ (issueId s) hopen]
    rfl

/-! ### The other console commands -/

theorem onSlabIn_eq (c : Cmd) (id : SlabId) (st : SlabState) (notice : SlabRecord → Notice) (s : State) :
    onSlabIn c id st notice s = match s.slab id with
      | none => reply c .unknown .none s
      | some r => if r.state = st then Placed c (notice r) s else reply c .wrongState .none s := by
  unfold onSlabIn
  cases s.slab id with
  | none => rfl
  | some r => simp only [queueCommand_placed]

/-- Settles O43: each command by its own check, then `queueCommand_placed`. -/
theorem consoleCommands : Obligations.ConsoleCommands := by
  intro s
  refine ⟨fun id hid hreach => ?scrap, fun id hid hreach => ?forceFree, fun job hjob hreach => ?jobOpen,
    fun job hjob hreach => ?jobClose, fun hreach => ?override⟩
  case scrap =>
    have hexec : exec (.scrap id) s = .next (takeScrap id s) := next_gate hid hreach _
    rw [hexec, takeScrap, onSlabIn_eq]
    rfl
  case forceFree =>
    have hexec : exec (.forceFree id) s = .next (takeForceFree id s) := next_gate hid hreach _
    rw [hexec, takeForceFree, onSlabIn_eq]
    rfl
  case jobOpen =>
    have hexec : exec (.jobOpen job) s = .next (takeJobOpen job s) := next_gate hjob hreach _
    rw [hexec, takeJobOpen, queueCommand_placed]
    simp only [Option.isNone_iff_eq_none]
  case jobClose =>
    have hexec : exec (.jobClose job) s = .next (takeJobClose job s) := next_gate hjob hreach _
    rw [hexec, takeJobClose, queueCommand_placed]
    simp only [Option.isNone_iff_eq_none]
  case override =>
    have hexec : exec .waterOverride s = .next (takeWaterOverride s) := next_gate rfl hreach _
    rw [hexec, takeWaterOverride, queueCommand_placed]
    cases s.water.stop <;> rfl

end Sys2Proof.Machine
end

section
/-! PROOF. The commands of a saw's cut unit that stage a plan (R35, R36, R48), ask for a cut (R56 to R60), change the
blade (R73) and park the saw (R76, R77). -/

namespace Sys2Proof.Machine

/-! ### Changes of the cut state -/

/-- R48: a staging or an uncut plan is emptied as the cut state returns to LOADED. -/
theorem toCut_loaded (s : State) : toCut .loaded s = { s with
    cut := { s.cut with state := .loaded, waiting := false, segment := none }
    plan := { staging := none, plan := none } } := by
  simp [toCut, markStands, planStands]

theorem toCut_staging (s : State) : toCut .staging s = { s with
    cut := { s.cut with state := .staging, waiting := false, segment := none }
    plan := { staging := s.plan.staging, plan := none } } := by
  simp [toCut, markStands, planStands]

theorem toCut_cutting (s : State) : toCut .cutting s = { s with
    cut := { s.cut with state := .cutting, waiting := false }
    plan := { staging := none, plan := s.plan.plan } } := by
  simp [toCut, markStands, planStands]

/-! ### Staging (R35, R36, R48) -/

theorem planHeaderOk_iff (h : PlanHeader) :
    planHeaderOk h = true ↔ ¬ (h.chargeJob = 0 ∨ 65535 < h.chargeJob ∨ h.steps = 0 ∨ h.leaves = 0) := by
  simp only [planHeaderOk, jobOk, within, Bool.and_eq_true, decide_eq_true_eq]
  omega

theorem leafEntryOk_of_bad {e : LeafEntry}
    (h : leafKindOf e.kind = none ∨ (leafKindOf e.kind = some .piece ∧ e.job = 0)) : leafEntryOk e = false := by
  rcases h with h | ⟨h, hjob⟩
  · simp [leafEntryOk, h]
  · simp [leafEntryOk, h, hjob, jobOk, within]

/-- R36: too many entries of a kind, or an entry that names no axis, no kind or no job. -/
theorem planPartOk_of_bad {steps : List StepEntry} {leaves : List LeafEntry}
    (h : 12 < steps.length ∨ 12 < leaves.length ∨ (∃ e ∈ steps, axisOf e.axis = none)
      ∨ (∃ e ∈ leaves, leafKindOf e.kind = none ∨ (leafKindOf e.kind = some .piece ∧ e.job = 0))) :
    planPartOk steps leaves = false := by
  by_contra hok
  simp only [planPartOk, Bool.not_eq_false, Bool.and_eq_true, decide_eq_true_eq, List.all_eq_true] at hok
  obtain ⟨⟨⟨hsteps, hleaves⟩, haxes⟩, hkinds⟩ := hok
  have hmax : partMax = 12 := rfl
  rcases h with h | h | ⟨e, he, haxis⟩ | ⟨e, he, hkind⟩
  · omega
  · omega
  · simpa [stepEntryOk, haxis] using haxes e he
  · simpa [leafEntryOk_of_bad hkind] using hkinds e he

theorem takePlanPart_staged {s : State} {g : Staging} (hcut : s.cut.state = .staging) (hstaged : s.plan.staging = some g)
    (steps : List StepEntry) (leaves : List LeafEntry) : takePlanPart steps leaves s =
      if planPartOk steps leaves = false then reply .planPart .badField .none s
      else if 24 < (appendPart g steps leaves).steps.length ∨ 25 < (appendPart g steps leaves).leaves.length then
        reply .planPart .tooLarge .none (dropStaging s)
      else reply .planPart .ok
        (.counts (appendPart g steps leaves).steps.length (appendPart g steps leaves).leaves.length)
        { s with plan := { s.plan with staging := some (appendPart g steps leaves) } } := by
  simp only [takePlanPart, hcut, hstaged]

/-- Settles O32: each command by the cut states that take it, and PLAN-PART's limits on the parts appended. -/
theorem stagingCommands : Obligations.StagingCommands := by
  intro s
  refine ⟨fun h hreach hslab => ?begin, fun steps leaves g hreach hok hcut hstaged => ?part,
    fun steps leaves g hreach hcut hstaged hbad => ?badPart, fun steps leaves hreach hcut => ?elsewhere,
    fun hreach => ?drop⟩
  case begin =>
    have hexec : exec (.planBegin h) s = .next (takePlanBegin h s) := next_gate hslab hreach _
    rw [hexec, takePlanBegin]
    by_cases hok : planHeaderOk h = true
    · simp only [hok, if_true, if_neg ((planHeaderOk_iff h).mp hok), toCut_staging]
    · have hfields := hok
      rw [planHeaderOk_iff, not_not] at hfields
      simp only [hok, if_pos hfields]
      rfl
  case part =>
    have hexec : exec (.planPart steps leaves) s = .next (takePlanPart steps leaves s) := next_gate rfl hreach _
    rw [hexec, takePlanPart_staged hcut hstaged, if_neg (by simp [hok])]
    by_cases hfits : g.steps.length + steps.length ≤ 24 ∧ g.leaves.length + leaves.length ≤ 25
    · rw [if_neg (by simp [appendPart, hfits]), if_pos hfits]
      simp [appendPart]
    · rw [if_pos (by simp only [appendPart, List.length_append, List.length_map]; omega), if_neg hfits, dropStaging,
        toCut_loaded]
  case badPart =>
    have hexec : exec (.planPart steps leaves) s = .next (takePlanPart steps leaves s) := next_gate rfl hreach _
    rw [hexec, takePlanPart_staged hcut hstaged, if_pos (planPartOk_of_bad hbad)]
  case elsewhere =>
    have hexec : exec (.planPart steps leaves) s = .next (takePlanPart steps leaves s) := next_gate rfl hreach _
    rw [hexec, takePlanPart]
    split
    · next hstaging _ => exact absurd hstaging hcut
    · rfl
  case drop =>
    have hexec : exec .planDrop s = .next (takePlanDrop s) := next_gate rfl hreach _
    rw [hexec, takePlanDrop]
    by_cases hstaging : s.cut.state = .staging
    · rw [if_pos hstaging, if_pos (.inl hstaging), dropStaging, toCut_loaded]
    · by_cases hplanned : s.cut.state = .planned ∧ uncut s = true
      · rw [if_neg hstaging, if_pos hplanned, dropUncutPlan, toCut_loaded,
          if_pos (.inr (by rwa [uncut_iff] at hplanned))]
      · rw [if_neg hstaging, if_neg hplanned]
        rw [uncut_iff] at hplanned
        rw [if_neg (by simpa [hstaging] using hplanned)]

/-! ### CUT-ASK (R56 to R60) -/

/-- R57: the first check that fails gives the reason. -/
theorem waitReason_eq_some {s : State} (h : s.cut.parked = true ∨ s.cut.priming ≠ none ∨ s.water.stop = true
      ∨ s.cut.blade.height ≤ s.bladeType.wornLimit ∨ s.ownGrant < minWetting s.bladeType) :
    waitReason s = some (if s.cut.parked = true then .waitParked
      else if s.cut.priming ≠ none then .waitPriming
      else if s.water.stop = true then .waitStop
      else if s.cut.blade.height ≤ s.bladeType.wornLimit then .waitBlade
      else .waitWater) := by
  simp only [waitReason, Option.isSome_iff_ne_none]
  split
  · rfl
  split
  · rfl
  split
  · rfl
  split
  · rfl
  · rw [if_pos (by tauto)]

theorem waitReason_eq_none_iff (s : State) : waitReason s = none ↔ s.cut.parked = false ∧ s.cut.priming = none
    ∧ s.water.stop = false ∧ s.bladeType.wornLimit < s.cut.blade.height ∧ minWetting s.bladeType ≤ s.ownGrant := by
  constructor
  · intro hnone
    by_contra hfails
    have hsome := waitReason_eq_some (s := s) (by
      by_contra h
      simp only [not_or, Bool.not_eq_true, ne_eq, not_not, Nat.not_le, Nat.not_lt] at h
      exact hfails h)
    rw [hnone] at hsome
    cases hsome
  · rintro ⟨hparked, hpriming, hstop, hblade, hwater⟩
    simp [waitReason, hparked, hpriming, hstop, Nat.not_le.mpr hblade, Nat.not_lt.mpr hwater]

/-- R61: a mark set while a check fails stands. -/
theorem setMark_stands {s : State} (h : markPasses { s with cut := { s.cut with waiting := true } } = false) :
    setMark s = { s with cut := { s.cut with waiting := true } } := by
  rw [setMark, evaluateMark, if_neg (by simp [h])]

theorem takeCutAsk_locks {s : State} (hcut : s.cut.state = .planned) (hpass : waitReason s = none) :
    takeCutAsk s = askLock s := by
  simp only [takeCutAsk, hcut, hpass]

theorem takeCutAsk_waits {s : State} {st : Status} (hcut : s.cut.state = .planned) (hreason : waitReason s = some st) :
    takeCutAsk s = setMark (reply .cutAsk st .none s) := by
  simp only [takeCutAsk, hcut, hreason]

theorem takeCutAsk_stopped {s : State} (hcut : s.cut.state = .suspended) (hstop : s.water.stop = true) :
    takeCutAsk s = setMark (reply .cutAsk .waitStop .none s) := by
  simp only [takeCutAsk, hcut, hstop, if_true]

theorem takeCutAsk_resumes {s : State} {p : Plan} {k : Nat} (hcut : s.cut.state = .suspended)
    (hstop : s.water.stop = false) (hplan : s.plan.plan = some p) (hk : currentStep p = some k) :
    takeCutAsk s = openSegment p k (reply .cutAsk .ok) s := by
  simp only [takeCutAsk, hcut, hstop, Bool.false_eq_true, if_false, resumeCut, hplan, hk]

/-- R59: the cut given is worked on the step's region. -/
theorem cutGrantOf_step {p : Plan} {seg : Segment} {st : PlanStep} {r : Region} (hst : stepAt p seg.step = some st)
    (hr : findRegion p.regions st.region = some r) (hdone : seg.doneBefore = st.doneLength) :
    cutGrantOf p seg = some (cutReply st r seg.step st.doneLength seg.grant seg.feed) := by
  have hremaining : stepRemaining p seg.step = cutLength st.axis r - st.doneLength := by
    simp only [stepRemaining, stepCutLength, stepDone, hst, hr]
  simp only [cutGrantOf, hst, hr, hremaining, hdone, cutReply]
  rfl

/-- Settles O35: the checks by `waitReason`, then the lock; in SUSPENDED the step resumes by `openSegment`. -/
theorem cutAskAnswered : Obligations.CutAskAnswered := by
  intro s hreach
  have hexec : exec .cutAsk s = .next (takeCutAsk s) := next_gate rfl hreach _
  rw [hexec]
  refine ⟨fun hcut hparked hpriming hstop hblade hwater hopen => ?locks,
    fun hcut hparked hpriming hstop hblade hwater => ⟨fun hlisten => ?silent, fun hline hqueue => ?full⟩,
    fun hcut hfails => ?waits, fun hcut hstop => ?stopped, fun p k hcut hstop hplan hk => ?resumes,
    fun hcut => ?cutting, fun hcut => ?elsewhere⟩
  case locks =>
    have hmax : queueMax = 12 := rfl
    rw [takeCutAsk_locks hcut ((waitReason_eq_none_iff s).mpr ⟨hparked, hpriming, hstop, hblade, hwater⟩), askLock,
      if_neg (by simp [hopen.1]), if_neg (Nat.not_le.mpr hopen.2), putNotices_open _ _ _ hopen.2]
    rfl
  case silent =>
    rw [takeCutAsk_locks hcut ((waitReason_eq_none_iff s).mpr ⟨hparked, hpriming, hstop, hblade, hwater⟩), askLock,
      if_pos hlisten]
  case full =>
    have hmax : queueMax = 12 := rfl
    rw [takeCutAsk_locks hcut ((waitReason_eq_none_iff s).mpr ⟨hparked, hpriming, hstop, hblade, hwater⟩), askLock,
      if_neg (by simp [hline]), if_pos (by omega)]
  case waits =>
    have hreason := waitReason_eq_some hfails
    rw [takeCutAsk_waits hcut hreason]
    refine congrArg Host.Outcome.next ((setMark_stands ?_).trans rfl)
    change (decide (s.cut.state = .planned) && (waitReason s).isNone
      || decide (s.cut.state = .suspended) && !s.water.stop) = false
    simp [hcut, hreason]
  case stopped =>
    rw [takeCutAsk_stopped hcut hstop]
    refine congrArg Host.Outcome.next ((setMark_stands ?_).trans rfl)
    simp [markPasses, hcut, hstop]
  case resumes =>
    rw [takeCutAsk_resumes hcut hstop hplan hk]
    refine ⟨_, rfl, ?_⟩
    unfold openSegment
    dsimp only
    rw [toCut_cutting]
    simp only [reply_fields]
    refine ⟨trivial, trivial, trivial, rfl, fun st r hst hr => ?_, trivial, trivial, trivial, trivial, trivial, trivial⟩
    rw [cutGrantOf_step hst hr (by simp [startSegment, stepDone, hst])]
    exact reply_mem .cutAsk _ _ _
  case cutting => simp only [takeCutAsk, hcut]
  case elsewhere =>
    rcases hcut with h | h | h | h | h <;> simp only [takeCutAsk, h]

/-! ### BLADE-CHANGE (R73) -/

theorem busyCut_iff (c : CutState) : busyCut c = true ↔ c = .cutting ∨ c = .suspended ∨ c = .splitting := by
  simp [busyCut, midStep, or_assoc]

theorem reply_mem_emit {q : Reply} (sg : Signal) {s : State} (h : PortFrame.reply q ∈ s.port.out.map (·.frame)) :
    PortFrame.reply q ∈ (emit sg s).port.out.map (·.frame) := by
  rw [emit_frames]
  exact List.mem_append_left _ (reply_mem_keptFor sg h)

theorem reply_mem_evaluateMark {q : Reply} {s : State} (h : PortFrame.reply q ∈ s.port.out.map (·.frame)) :
    PortFrame.reply q ∈ (evaluateMark s).port.out.map (·.frame) := by
  unfold evaluateMark
  split
  · exact reply_mem_emit _ h
  · exact h

theorem workRequest_saw {s : State} (h : s.role = .saw) :
    workRequest s = if s.cut.parked = true then 0 else min s.bladeType.q s.cfg.drawCeiling := if_pos h

theorem reworkRequest_water (c : Option Cmd) (s : State) : (reworkRequest c s).water = { s.water with ownRequest := workRequest s } := by
  unfold reworkRequest
  dsimp only
  split
  · simp
  · rfl

/-- Settles O38: the refusals in their order, then the mounted blade through `reworkRequest` and `evaluateMark`. -/
theorem bladeChanged : Obligations.BladeChanged := by
  intro type serial height s hreach hok
  have hexec : exec (.bladeChange type serial height) s = .next (takeBladeChange type serial height s) :=
    next_gate hok hreach _
  rw [hexec]
  refine ⟨fun hcut => ?busy, fun p hcut hplan hkerf => ?kerf, fun hcut => ⟨_, rfl, ?_⟩⟩
  case busy => rw [takeBladeChange, if_pos ((busyCut_iff _).mpr hcut)]
  case kerf =>
    rw [takeBladeChange, if_neg (by simp [busyCut_iff, hcut]), if_pos (by simpa [kerfDiffers, hcut, hplan] using hkerf)]
  have hidle : ¬ busyCut s.cut.state = true := by
    rw [busyCut_iff]
    rcases hcut with h | h | h | h | ⟨h, -⟩ <;> simp [h]
  have hkerf : ¬ kerfDiffers type s = true := by
    rcases hcut with h | h | h | h | ⟨h, hsame⟩
    · simp [kerfDiffers, h]
    · simp [kerfDiffers, h]
    · simp [kerfDiffers, h]
    · simp [kerfDiffers, h]
    · cases hplan : s.plan.plan with
      | none => simp [kerfDiffers, hplan]
      | some p => simp only [kerfDiffers, hplan, hsame p hplan, ne_eq, not_true_eq_false, decide_false, Bool.and_false,
          Bool.false_eq_true, not_false_eq_true]
  have hrole : s.role = .saw := by
    have hallowed := hreach.2.2.2
    cases h : s.role
    · rfl
    · rw [h] at hallowed; cases hallowed
    · rw [h] at hallowed; cases hallowed
  rw [takeBladeChange, if_neg hidle, if_neg hkerf]
  refine ⟨by simp [mountBlade], ?_, by simp [mountBlade], reply_mem_evaluateMark ?_, by simp [mountBlade],
    by simp [mountBlade], by simp [mountBlade], by simp [mountBlade], ?_⟩
  · rw [(evaluateMark_fields _).2.2.2.2.2.2.2.2.2.2.2.2.2.2.2.1, reworkRequest_water, 
      workRequest_saw (by rw [(reply_views ..).2.2.1]; exact hrole)]
    rfl
  · rw [(reworkRequest_fields ..).2.2.2.1]
    exact reply_mem .bladeChange _ _ _
  · simpa [mountBlade] using hreach.2.2.1

/-! ### PARK and UNPARK (R76, R77) -/

theorem queueDraw_absorbs {s : State} (p : DrawPurpose) (c : Option Cmd) (h : s.boot.listenOnly = false)
    (hwaiting : drawWaiting s.line = true) : queueDraw p c s = { s with line := absorbDraw p c s.line } := by
  rw [queueDraw, if_neg (by simp [h]), if_pos hwaiting]

/-- The parked flag and priming changed, before the own request is worked out again. -/
def parkedAs (parked : Bool) (priming : Option Nat) (s : State) : State :=
  { s with cut := { s.cut with parked := parked, priming := priming } }

section
variable {c : Cmd} {parked : Bool} {priming : Option Nat} {s : State}

theorem parkWith_silent (h : s.boot.listenOnly = true) : parkWith c parked priming s = reply c .silent .none s := if_pos h

theorem parkWith_full (h : s.boot.listenOnly = false) (hnone : drawWaiting s.line = false) (hfull : 12 ≤ s.line.queue.length) :
    parkWith c parked priming s = reply c .full .none s := by
  have hmax : queueMax = 12 := rfl
  rw [parkWith, if_neg (by simp [h]), if_pos (by simp [drawBlocked, hnone, hmax, hfull])]

theorem parkWith_joins (hopen : QueueOpen s) (hnone : drawWaiting s.line = false) :
    parkWith c parked priming s = { s with
      port := { s.port with outstanding := some c }
      cut := { s.cut with parked := parked, priming := priming }
      water := { s.water with ownRequest := workRequest (parkedAs parked priming s) }
      line := withEntry { entry (.draw (workRequest (parkedAs parked priming s))
        false 0) (some c) with purpose := some .request } s.line } := by
  obtain ⟨hline, hroom⟩ := hopen
  rw [parkWith, if_neg (by simp [hline]), if_neg (by simp [drawBlocked, hnone, hroom])]
  dsimp only
  rw [queueDraw_joins _ _ (by exact hline) (by exact hnone) (by exact hroom)]
  rfl

theorem parkWith_absorbed (hline : s.boot.listenOnly = false) (hwaiting : drawWaiting s.line = true) :
    parkWith c parked priming s = { s with
      port := { s.port with outstanding := some c }
      cut := { s.cut with parked := parked, priming := priming }
      water := { s.water with ownRequest := workRequest (parkedAs parked priming s) }
      line := absorbDraw .request (some c) s.line } := by
  rw [parkWith, if_neg (by simp [hline]), if_neg (by simp [drawBlocked, hwaiting])]
  dsimp only
  rw [queueDraw_absorbs _ _ (by exact hline) (by exact hwaiting)]
  rfl

end

/-- Settles O39: the four ways of `parkWith`, with the request of the saw worked at the new flag. -/
theorem parking : Obligations.Parking := by
  intro s request
  have hrole {c : Cmd} (hsaw : ∀ r, roleAllows c r = true → r = .saw) (hreach : Reaches c s) : s.role = .saw :=
    hsaw _ hreach.2.2.2
  refine ⟨fun hreach => ?park, fun hreach => ?unpark⟩
  case park =>
    have hexec : exec .park s = .next (takePark s) := next_gate rfl hreach _
    have hsaw : s.role = .saw := hrole (by intro r; cases r <;> decide) hreach
    have hzero (priming : Option Nat) : workRequest (parkedAs true priming s) = 0 := by
      exact (workRequest_saw (by exact hsaw)).trans (if_pos rfl)
    rw [hexec]
    refine ⟨fun hcut => ?_, fun h1 h2 h3 => ?_⟩
    · rw [takePark, if_pos ((busyCut_iff _).mpr hcut)]
    have hidle : ¬ busyCut s.cut.state = true := by simp [busyCut_iff, h1, h2, h3]
    rw [takePark, if_neg hidle]
    refine ⟨fun hparked => ?_, fun hparked hlisten => ?_, fun hparked hopen hnone => ?_, fun hparked hline hwaiting => ?_,
      fun hparked hline hnone hfull => ?_⟩
    · rw [if_pos hparked]
    all_goals rw [if_neg (by simp [hparked])]
    · rw [parkWith_silent hlisten]
    · rw [parkWith_joins hopen hnone, hzero]
    · rw [parkWith_absorbed hline hwaiting, hzero]
    · rw [parkWith_full hline hnone hfull]
  case unpark =>
    have hexec : exec .unpark s = .next (takeUnpark s) := next_gate rfl hreach _
    have hsaw : s.role = .saw := hrole (by intro r; cases r <;> decide) hreach
    have hwork (priming : Option Nat) :
        workRequest (parkedAs false priming s) = request := by
      exact (workRequest_saw (by exact hsaw)).trans (if_neg Bool.false_ne_true)
    rw [hexec, takeUnpark]
    refine ⟨fun hparked => ?_, fun hparked hlisten => ?_, fun hparked hopen hnone => ?_, fun hparked hline hwaiting => ?_,
      fun hparked hline hnone hfull => ?_⟩
    · rw [if_pos hparked]
    all_goals rw [if_neg (by simp [hparked])]
    · rw [parkWith_silent hlisten]
    · rw [parkWith_joins hopen hnone, hwork]
    · rw [parkWith_absorbed hline hwaiting, hwork]
    · rw [parkWith_full hline hnone hfull]

end Sys2Proof.Machine
end

section
/-! PROOF. The fit rule on the draw table (R111), and the timers of the plant unit (R136 to R138). -/

namespace Sys2Proof.Machine

/-! ### The fit rule -/

/-- What an entry keeps depends on the entries behind it alone. -/
theorem takeExcess_append (pre rest : List DrawEntry) (x : Nat) :
    (takeExcess (pre ++ rest) x).1[pre.length]? = (takeExcess rest x).1[0]? := by
  induction pre with
  | nil => rfl
  | cons d pre ih =>
    rw [List.cons_append, takeExcess]
    split <;> exact ih

theorem takeExcess_length (ds : List DrawEntry) (x : Nat) : (takeExcess ds x).1.length = ds.length := by
  induction ds with
  | nil => rfl
  | cons d ds ih => rw [takeExcess]; split <;> simp [ih]

/-- Settles O46: every entry gives what is left to take behind it (`takeExcess_append`, `takeExcess_unlockedSum`). -/
theorem fitRule : Obligations.FitRule := by
  intro capacity ds room excess
  refine ⟨fun pre post d hds => ?entry, takeExcess_length _ _, ?sum, takeExcess_lockedSum _ _⟩
  case entry =>
    rw [fitTable, hds, takeExcess_append, ← hds, takeExcess, (takeExcess_unlockedSum post _).2]
    split <;> rfl
  case sum =>
    rw [fitTable, (takeExcess_unlockedSum _ _).1]
    simp only [room]
    omega

/-! ### The timers of the plant unit -/

theorem startAnnounce_eq (p : Plant) : startAnnounce p =
    { p with announceTimer := if p.announceTimer = none then some 100 else p.announceTimer } := by
  cases h : p.announceTimer <;> simp [startAnnounce, h]

theorem queuePlant_waits {s : State} (h : (allEntries s.line).any isPlant = true) : queuePlant s = s := if_pos h

theorem queuePlant_line {s : State} (h : (allEntries s.line).any isPlant = false) (hline : s.boot.listenOnly = false) :
    (queuePlant s).line = putNotices .plant [entry (plantFigures s.plant) none] s.line := by
  rw [queuePlant, if_neg (by simp [h]), queueNotices_line _ _ hline]

theorem queuePlant_silent {s : State} (h : s.boot.listenOnly = true) : (queuePlant s).line = s.line := by
  unfold queuePlant
  split
  · rfl
  · simp [queueNotices, h]

theorem queuePlant_mem {s : State} (h : (allEntries s.line).any isPlant = false) (hline : s.boot.listenOnly = false) :
    ∃ e ∈ allEntries (queuePlant s).line, e.notice = plantFigures s.plant := by
  rw [queuePlant_line h hline]
  exact ⟨_, (mem_allEntries_putNotices ..).mpr (.inr (List.mem_singleton_self _)), rfl⟩

theorem queuePlant_joins {s : State} (h : (allEntries s.line).any isPlant = false) (hopen : QueueOpen s) :
    (queuePlant s).line = withEntry (entry (plantFigures s.plant) none) s.line := by
  rw [queuePlant_line h hopen.1, putNotices_open _ _ _ hopen.2]

/-- R138: the plant unit once its report timer has run out. -/
def staled (p : Plant) : Plant :=
  { p with
    stale := true, reportTimer := none
    announceTimer := if p.announceTimer = none then some 100 else p.announceTimer }

theorem reportsStale_eq (s : State) :
    reportsStale s = announceTest (raise .plantStale s.station { s with plant := staled s.plant }) := by
  rw [reportsStale, startAnnounce_eq]
  rfl

/-- R136: figures announced as not stale are announced again. -/
theorem announceTest_staled {s : State} (hstale : s.plant.stale = true) (hline : s.boot.listenOnly = false)
    (hannounced : ∀ a, s.plant.announced = some a → a.stale = false) : announceTest s = queuePlant s := by
  rw [announceTest, if_pos]
  cases h : s.plant.announced with
  | none => simp [announces, announceDue, h, hline]
  | some a => simp [announces, announceDue, h, hline, hstale, hannounced a h]

/-- Settles O41: each expiry by whether its timer runs, and the PLANT queued by `queuePlant_line`. -/
theorem plantTimers : Obligations.PlantTimers := by
  intro s
  refine ⟨fun hon n hrun => ?report, fun hon n hrun => ?announce, fun hidle => ?reportIdle, fun hidle => ?announceIdle⟩
  case report =>
    have hexec : exec .reportTimerExpiry s = .next (reportsStale s) := by
      change Host.Outcome.next (if runs s s.plant.reportTimer = true then reportsStale s else s) = _
      rw [if_pos (by simp [runs, hon, hrun])]
    let u := raise .plantStale s.station { s with plant := staled s.plant }
    have huline : u.line = s.line := by simp [u]
    have huplant : u.plant = staled s.plant := by simp [u]
    have hulisten : u.boot.listenOnly = s.boot.listenOnly := by simp [u]
    refine ⟨_, hexec, ?_⟩
    rw [reportsStale_eq]
    refine ⟨by simp [staled], by simp [staled, plantFigures, announcedCapacity], by simp [raise_faults, setFlag],
      by simp [raise_faults], fun hlisten => ?_, fun hline hannounced => ⟨fun hwaits => ?_, fun hnone => ?_, fun hopen hnone => ?_⟩,
      by simp, by simp, by simp, by simp, by simp⟩
    · have hquiet : announceTest u = u := if_neg (by simp [announces, hulisten, hlisten])
      exact (congrArg State.line hquiet).trans huline
    all_goals
      have htest : announceTest u = queuePlant u :=
        announceTest_staled (by rw [huplant]; rfl) (hulisten.trans hline) (by rw [huplant]; exact hannounced)
    · rw [htest, queuePlant_waits (by rwa [huline]), huline]
    · rw [htest]
      obtain ⟨e, he, hnotice⟩ := queuePlant_mem (s := u) (by rwa [huline]) (hulisten.trans hline)
      exact ⟨e, he, hnotice.trans (by rw [huplant]; rfl)⟩
    · rw [htest, queuePlant_joins (by rwa [huline]) ⟨hulisten.trans hline, by rw [huline]; exact hopen.2⟩, huline, huplant]
      rfl
  case announce =>
    have hexec : exec .announceTimerExpiry s = .next (announceExpired s) := by
      change Host.Outcome.next (if runs s s.plant.announceTimer = true then announceExpired s else s) = _
      rw [if_pos (by simp [runs, hon, hrun])]
    refine ⟨_, hexec, ?_⟩
    unfold announceExpired
    refine ⟨by simp, fun hquiet => ?_, fun hline hnone => ⟨?_, fun hopen => ?_⟩, by simp, by simp, by simp, by simp,
      by simp, by simp, by simp⟩
    · rcases hquiet with hlisten | hwaits
      · exact queuePlant_silent hlisten
      · rw [queuePlant_waits (by exact hwaits)]
    · exact queuePlant_mem hnone hline
    · exact queuePlant_joins hnone hopen
  case reportIdle =>
    change Host.Outcome.next (if runs s s.plant.reportTimer = true then reportsStale s else s) = _
    rw [if_neg (by rcases hidle with h | h <;> simp [runs, h])]
  case announceIdle =>
    change Host.Outcome.next (if runs s s.plant.announceTimer = true then announceExpired s else s) = _
    rw [if_neg (by rcases hidle with h | h <;> simp [runs, h])]

end Sys2Proof.Machine
end

section
/-! PROOF. PLAN-ABORT and QUERY-PLAN (R51, R52, R188), and the outcomes a plan resolves to (R50 to R53). -/

namespace Sys2Proof.Machine

/-! ### The outcomes of a plan -/

/-- R52: a region is WHOLE or IN CUT. -/
def stands (r : Region) : Bool := decide (r.status = .whole) || decide (r.status = .inCut)

/-- R52: a standing region's remnant is scored when its step has cut into it. -/
def standsScored (p : Plan) (r : Region) : Bool := decide (r.status = .inCut) && regionScored p r

/-- R50, R52: the region gives a remnant while ids are left. -/
def wantsId (p : Plan) (r : Region) : Bool :=
  (stands r && meetsMinimum p.minLength p.minWidth r)
    || (decide (r.status = .leaf) && p.leaves.any fun f => decide (f.region = r.number ∧ f.kind = .remnant))

theorem standingOutcome_eq (p : Plan) (r : Region) : standingOutcome p r =
    if stands r = true then some
      { kind := if meetsMinimum p.minLength p.minWidth r = true then .remnant (standsScored p r) else .waste
        region := r.number, leaf := none, area := regionArea r, amount := 0 }
    else none := by
  cases hstatus : r.status <;> simp [standingOutcome, stands, standsScored, hstatus]

theorem mem_resolve {p : Plan} (h : p.regions.Pairwise fun a b => a.number < b.number) (o : Outcome) : o ∈ resolve p ↔
    (∃ (i : Nat) (f : PlanLeaf), p.leaves[i]? = some f ∧ ∃ r ∈ p.regions, r.number = f.region ∧ r.status = .leaf ∧ o =
      { kind := leafOutcomeKind f, region := r.number, leaf := some (i + 1), area := regionArea r, amount := 0 })
    ∨ ∃ r ∈ p.regions, stands r = true ∧ o =
      { kind := if meetsMinimum p.minLength p.minWidth r = true then .remnant (standsScored p r) else .waste
        region := r.number, leaf := none, area := regionArea r, amount := 0 } := by
  rw [resolve, List.mem_append, mem_leafOutcomes p h, List.mem_filterMap]
  refine or_congr_right (exists_congr fun r => and_congr_right fun _ => ?_)
  rw [standingOutcome_eq]
  split
  · next hstands => rw [Option.some.injEq, eq_comm]; simp [hstands]
  · next hstands => simp [hstands]

theorem region_eq_of_number {rs : List Region} (h : rs.Pairwise fun a b => a.number < b.number) {r r' : Region}
    (hr : r ∈ rs) (hr' : r' ∈ rs) (hn : r.number = r'.number) : r = r' :=
  List.inj_on_of_nodup_map (numbers_nodup h) hr hr' hn

/-- A region wants an id exactly when a remnant of it is among the outcomes. -/
theorem any_remnant_eq_wantsId {p : Plan} (h : p.regions.Pairwise fun a b => a.number < b.number) (r : Region)
    (hr : r ∈ p.regions) : ((resolve p).any fun o => isRemnant o && decide (o.region = r.number)) = wantsId p r := by
  rw [Bool.eq_iff_iff]
  simp only [List.any_eq_true, Bool.and_eq_true, decide_eq_true_eq, mem_resolve h, wantsId, Bool.or_eq_true]
  constructor
  · rintro ⟨o, ⟨i, f, hf, r', hr', hnumber, hleaf, rfl⟩ | ⟨r', hr', hstands, rfl⟩, hremnant, hregion⟩
    · obtain rfl := region_eq_of_number h hr' hr hregion
      have hkind : f.kind = .remnant := by
        cases hk : f.kind <;> simp [isRemnant, leafOutcomeKind, hk] at hremnant ⊢
      exact .inr ⟨hleaf, f, List.mem_of_getElem? hf, hnumber.symm, hkind⟩
    · obtain rfl := region_eq_of_number h hr' hr hregion
      refine .inl ⟨hstands, ?_⟩
      by_contra hsmall
      simp [isRemnant, hsmall] at hremnant
  · rintro (⟨hstands, hbig⟩ | ⟨hleaf, f, hf, hregion, hkind⟩)
    · exact ⟨_, .inr ⟨r, hr, hstands, rfl⟩, by simp [isRemnant, hbig], rfl⟩
    · obtain ⟨i, hi⟩ := List.mem_iff_getElem?.mp hf
      exact ⟨_, .inl ⟨i, f, hi, r, hr, hregion.symm, hleaf, rfl⟩, by simp [isRemnant, leafOutcomeKind, hkind], rfl⟩

/-- R53: fewer regions below this one want an id than ids are left. -/
def idLeft (s : State) (p : Plan) (r : Region) : Bool := decide
  ((p.regions.filter fun r' => wantsId p r' && decide (r'.number < r.number)).length < 65536 - s.stock.seqNext)

/-- R53: a remnant beyond the ids left is waste. -/
def withId (kept : List Nat) (o : Outcome) : Outcome :=
  if isRemnant o = true ∧ o.region ∉ kept then { o with kind := .waste } else o

theorem outcomesOf_eq (s : State) (p : Plan) : outcomesOf s p = (resolve p).map (withId (keptRegions s p)) := rfl

theorem withId_leaf (kept : List Nat) (o : Outcome) : (withId kept o).leaf = o.leaf ∧ (withId kept o).region = o.region := by
  unfold withId
  split <;> exact ⟨rfl, rfl⟩

section
variable {s : State} {p : Plan} (h : p.regions.Pairwise fun a b => a.number < b.number) {r : Region} (hr : r ∈ p.regions)
include h hr

theorem mem_keptRegions_iff (hwants : wantsId p r = true) : r.number ∈ keptRegions s p ↔ idLeft s p r = true := by
  rw [mem_keptRegions s p h (wantsId p) (any_remnant_eq_wantsId h) r hr hwants, idLeft, decide_eq_true_iff]

theorem withId_ofLeaf {f : PlanLeaf} (hf : f ∈ p.leaves) (hregion : r.number = f.region) (hleaf : r.status = .leaf)
    (on : Option Nat) (area : Nat) :
    withId (keptRegions s p) { kind := leafOutcomeKind f, region := r.number, leaf := on, area := area, amount := 0 } =
      { kind := match f.kind with
          | .piece => .piece f.job f.tag
          | .remnant => if idLeft s p r = true then .remnant false else .waste
          | .waste => .waste
        region := r.number, leaf := on, area := area, amount := 0 } := by
  cases hkind : f.kind with
  | piece => simp [withId, isRemnant, leafOutcomeKind, hkind]
  | waste => simp [withId, isRemnant, leafOutcomeKind, hkind]
  | remnant =>
    have hwants : wantsId p r = true := by
      simp only [wantsId, hleaf, decide_true, Bool.true_and, Bool.or_eq_true, List.any_eq_true, decide_eq_true_eq]
      exact .inr ⟨f, hf, hregion.symm, hkind⟩
    have hkept := mem_keptRegions_iff (s := s) h hr hwants
    by_cases hid : idLeft s p r = true
    · simp [withId, isRemnant, leafOutcomeKind, hkind, hkept, hid]
    · simp [withId, isRemnant, leafOutcomeKind, hkind, hkept, hid]

theorem withId_standing (hstands : stands r = true) (area : Nat) :
    withId (keptRegions s p)
      { kind := if meetsMinimum p.minLength p.minWidth r = true then .remnant (standsScored p r) else .waste
        region := r.number, leaf := none, area := area, amount := 0 } =
      { kind := if meetsMinimum p.minLength p.minWidth r = true ∧ idLeft s p r = true then .remnant (standsScored p r)
          else .waste
        region := r.number, leaf := none, area := area, amount := 0 } := by
  by_cases hbig : meetsMinimum p.minLength p.minWidth r = true
  · have hkept := mem_keptRegions_iff (s := s) h hr (by simp [wantsId, hstands, hbig])
    by_cases hid : idLeft s p r = true
    · simp [withId, isRemnant, hbig, hkept, hid]
    · simp [withId, isRemnant, hbig, hkept, hid]
  · simp [withId, isRemnant, hbig]

end

/-- R50, R52: leaves first, by leaf index; then the standing regions, by number. -/
theorem outcomesOf_ordered (s : State) {p : Plan} (h : p.regions.Pairwise fun a b => a.number < b.number) :
    (outcomesOf s p).Pairwise fun a b => match a.leaf, b.leaf with
      | some i, some j => i < j
      | some _, none => True
      | none, some _ => False
      | none, none => a.region < b.region := by
  have hleaf : ∀ o ∈ leafOutcomes p, o.leaf.isSome := by
    intro o ho
    obtain ⟨i, f, -, r, -, -, -, rfl⟩ := (mem_leafOutcomes p h o).mp ho
    rfl
  have hnone : ∀ o ∈ p.regions.filterMap (standingOutcome p), o.leaf = none := by
    intro o ho
    obtain ⟨r, -, hr⟩ := List.mem_filterMap.mp ho
    rw [standingOutcome_eq] at hr
    split at hr
    · rw [← Option.some.inj hr]
    · cases hr
  rw [outcomesOf_eq, List.pairwise_map]
  simp only [(withId_leaf _ _).1, (withId_leaf _ _).2]
  rw [resolve, List.pairwise_append]
  refine ⟨?leaves, ?standing, fun a ha b hb => ?between⟩
  case leaves =>
    have hnumbered : (p.leaves.zipIdx 1).Pairwise fun a b => a.2 < b.2 := by
      rw [← List.pairwise_map (f := Prod.snd) (R := (· < ·)), List.zipIdx_map_snd]
      exact List.pairwise_lt_range'
    refine hnumbered.filterMap _ fun a b hab x hx y hy => ?_
    have hindex {c : PlanLeaf × Nat} {z : Outcome} (hz : (match findRegion p.regions c.1.region with
        | some r => if r.status = .leaf then some { kind := leafOutcomeKind c.1, region := r.number, leaf := some c.2
                                                    area := regionArea r, amount := 0 } else none
        | none => none) = some z) : z.leaf = some c.2 := by
      split at hz
      · split at hz
        · rw [← Option.some.inj hz]
        · cases hz
      · cases hz
    simp only [hindex hx, hindex hy]
    exact hab
  case standing =>
    refine h.filterMap _ fun r r' hlt x hx y hy => ?_
    rw [standingOutcome_eq] at hx hy
    split at hx
    · split at hy
      · rw [← Option.some.inj hx, ← Option.some.inj hy]
        exact hlt
      · cases hy
    · cases hx
  case between =>
    obtain ⟨i, hi⟩ := Option.isSome_iff_exists.mp (hleaf a ha)
    simp only [hi, hnone b hb]

/-! ### PLAN-ABORT and QUERY-PLAN -/

theorem abortPlan_of_plan {s : State} {p : Plan} (h : s.plan.plan = some p) :
    abortPlan s = reply .planAbort .ok (outcomeCountsBody (outcomesOf s p)) (complete p s) := by
  simp only [abortPlan, h]

theorem takeQueryPlan_of_some {s : State} {b : ReplyBody} (h : planQueried s = some b) :
    takeQueryPlan s = reply .queryPlan .ok b s := by
  simp only [takeQueryPlan, h]

theorem takeQueryPlan_of_none {s : State} (h : planQueried s = none) :
    takeQueryPlan s = reply .queryPlan .wrongState .none s := by
  simp only [takeQueryPlan, h]

/-- Settles O34: PLAN-ABORT and QUERY-PLAN by cut state, and the outcomes by `mem_resolve` and `withId`. -/
theorem abortAndQueryPlan : Obligations.AbortAndQueryPlan := by
  refine ⟨fun s => ⟨fun length hreach => ?abort, fun hreach => ?query⟩, fun s p hregions => ⟨fun o => ?outcomes,
    outcomesOf_ordered s hregions⟩⟩
  case abort =>
    have hexec : exec (.planAbort length) s = .next (takePlanAbort length s) := next_gate rfl hreach _
    rw [hexec]
    refine ⟨fun hdrop => ?_, fun p hplan hcut => ?_, fun p hcut hplan => ?_, fun hcut => ?_⟩
    · rcases hdrop with hcut | ⟨hcut, huncut⟩
      · have htake : takePlanAbort length s = reply .planAbort .ok .none (dropStaging s) := by
          simp only [takePlanAbort, hcut]
        rw [htake, dropStaging, toCut_loaded]
      · have htake : takePlanAbort length s = reply .planAbort .ok .none (dropUncutPlan s) := by
          simp only [takePlanAbort, hcut, (uncut_iff s).mpr huncut, if_true]
        rw [htake, dropUncutPlan, toCut_loaded]
    · have htake : takePlanAbort length s = abortPlan s := by
        rcases hcut with hcut | ⟨hcut, hbegun⟩
        · simp only [takePlanAbort, hcut]
        · have hno : ¬ uncut s = true := fun h => by simp [(uncut_iff s).mp h p hplan] at hbegun
          simp only [takePlanAbort, hcut, hno, Bool.false_eq_true, if_false]
      rw [htake, abortPlan_of_plan hplan]
    · have htake : takePlanAbort length s = abortPlan (closeSegment length s) := by simp only [takePlanAbort, hcut]
      rw [htake, abortPlan_of_plan hplan]
    · rcases hcut with h | h | h | h <;> simp only [takePlanAbort, h]
  case query =>
    have hexec : exec .queryPlan s = .next (takeQueryPlan s) := next_gate rfl hreach _
    rw [hexec]
    refine ⟨fun g hcut hstaged => ⟨?_, rfl⟩, fun p hcut hplan => ⟨?_, rfl⟩, fun hcut hnone => ?_, fun hcut => ?_⟩
    · rw [takeQueryPlan_of_some (b := .staging g) (by simp only [planQueried, hcut, hstaged, Option.map_some])]
    · have hqueried : planQueried s = some (.plan (viewPlan p (if s.cut.state = .splitting then p.split else none))) := by
        rcases hcut with h | h | h | h <;> simp [planQueried, h, hplan]
      rw [takeQueryPlan_of_some hqueried]
      rfl
    · rw [takeQueryPlan_of_none (by simp only [planQueried, hcut, hnone, Option.map_none])]
    · rw [takeQueryPlan_of_none (by rcases hcut with h | h | h <;> simp only [planQueried, h])]
  case outcomes =>
    rw [outcomesOf_eq, List.mem_map]
    constructor
    · rintro ⟨x, hx, rfl⟩
      rcases (mem_resolve hregions x).mp hx with ⟨i, f, hf, r, hr, hregion, hleaf, rfl⟩ | ⟨r, hr, hstands, rfl⟩
      · exact .inl ⟨i, f, hf, r, hr, hregion, hleaf,
          withId_ofLeaf hregions hr (List.mem_of_getElem? hf) hregion hleaf _ _⟩
      · exact .inr ⟨r, hr, hstands, withId_standing hregions hr hstands _⟩
    · rintro (⟨i, f, hf, r, hr, hregion, hleaf, rfl⟩ | ⟨r, hr, hstands, rfl⟩)
      · exact ⟨_, (mem_resolve hregions _).mpr (.inl ⟨i, f, hf, r, hr, hregion, hleaf, rfl⟩),
          withId_ofLeaf hregions hr (List.mem_of_getElem? hf) hregion hleaf _ _⟩
      · exact ⟨_, (mem_resolve hregions _).mpr (.inr ⟨r, hr, hstands, rfl⟩), withId_standing hregions hr hstands _⟩

end Sys2Proof.Machine
end

section
/-! PROOF. The checks of PLAN-END over numbered steps, leaves and regions (R38 to R44), and the plan as formed (R43 to
R46). -/

namespace Sys2Proof.Machine

/-! ### Numbered entries -/

/-- The entry of a number counted from 1. -/
def numbered {α : Type} (ss : List α) (k : Nat) : Option α := if k = 0 then none else ss[k - 1]?

theorem numbered_bounds {α : Type} {ss : List α} {k : Nat} {a : α} (h : numbered ss k = some a) : 1 ≤ k ∧ k ≤ ss.length := by
  unfold numbered at h
  split at h
  · cases h
  · obtain ⟨hlt, -⟩ := List.getElem?_eq_some_iff.mp h
    omega

theorem numbered_getElem {α : Type} {ss : List α} {k : Nat} {a : α} (h : numbered ss k = some a) : ss[k - 1]? = some a := by
  unfold numbered at h
  split at h
  · cases h
  · exact h

/-- With no two entries alike the first that matches is the only one. -/
theorem findIdx_numbered {α : Type} {ss : List α} {f : α → Nat}
    (h : ∀ j k a b, j < k → numbered ss j = some a → numbered ss k = some b → f a ≠ f b) (n k : Nat) :
    (ss.findIdx? fun a => decide (f a = n)).map (· + 1) = some k ↔ ∃ a, numbered ss k = some a ∧ f a = n := by
  constructor
  · intro hk
    obtain ⟨i, hi, rfl⟩ := Option.map_eq_some_iff.mp hk
    obtain ⟨hlt, hmatch, -⟩ := List.findIdx?_eq_some_iff_getElem.mp hi
    exact ⟨ss[i], List.getElem?_eq_getElem hlt, of_decide_eq_true hmatch⟩
  · rintro ⟨a, ha, hn⟩
    obtain ⟨hpos, hle⟩ := numbered_bounds ha
    obtain ⟨hlt, hget⟩ := List.getElem?_eq_some_iff.mp (numbered_getElem ha)
    refine Option.map_eq_some_iff.mpr ⟨k - 1, List.findIdx?_eq_some_iff_getElem.mpr ⟨hlt, by simp [hget, hn], ?_⟩, by omega⟩
    intro j hj
    have hne := h (j + 1) k ss[j] a (by omega) (List.getElem?_eq_getElem (by omega)) ha
    simpa [hn] using hne

/-! ### The checks, each over numbered entries -/

/-- The first number at which something is wrong. -/
def FirstAt (bad : Nat → Prop) (k : Nat) : Prop := bad k ∧ ∀ j, j < k → ¬ bad j

/-- R39: step k cuts region 0, one not made before it, or one that an earlier step cuts. -/
def BadRegion (ss : List StagedStep) (k : Nat) : Prop :=
  ∃ st, numbered ss k = some st ∧ (st.region = 0 ∨ 2 * k - 1 < st.region
    ∨ ∃ j st', j < k ∧ numbered ss j = some st' ∧ st'.region = st.region)

theorem badRegion_iff (ss : List StagedStep) (k : Nat) :
    BadRegion ss k ↔ ∃ a, numbered ss k = some a ∧ RegionFault (ss.take (k - 1)) a := by
  refine exists_congr fun a => and_congr_right fun ha => ?_
  obtain ⟨hpos, hle⟩ := numbered_bounds ha
  have hlen : (ss.take (k - 1)).length + 1 = k := by rw [List.length_take]; omega
  rw [RegionFault, hlen, exists_mem_take]
  rfl

theorem checkRegions_numbered (ss : List StagedStep) :
    (∀ k, FirstAt (BadRegion ss) k → checkRegions 1 [] ss = some (.badRegion, k))
      ∧ ((∀ k, ¬ BadRegion ss k) → checkRegions 1 [] ss = none) :=
  (checkRegions_spec ss).numbered _ (badRegion_iff ss)

theorem regionsSound_of_none {ss : List StagedStep} (h : ∀ k, ¬ BadRegion ss k) : RegionsSound ss :=
  fun j a ha hfault => h (j + 1) ((badRegion_iff ss _).mpr ⟨a, ha, hfault⟩)

/-- R40: step k stands off the grid. -/
def OffGrid (grid : Nat) (ss : List StagedStep) (k : Nat) : Prop :=
  ∃ st, numbered ss k = some st ∧ ¬ grid ∣ st.offset

theorem checkGrid_numbered (grid : Nat) (ss : List StagedStep) :
    (∀ k, FirstAt (OffGrid grid ss) k → checkGrid grid 1 ss = some (.offGrid, k))
      ∧ ((∀ k, ¬ OffGrid grid ss k) → checkGrid grid 1 ss = none) :=
  (checkGrid_spec grid ss).numbered _ fun _ => Iff.rfl

/-- R40: step k lies outside its region, or its cut is longer than a saw station grants. -/
def Outside (kerf : Nat) (rs : List Region) (ss : List StagedStep) (k : Nat) : Prop :=
  ∃ st r, numbered ss k = some st ∧ r ∈ rs ∧ r.number = st.region ∧ (st.offset = 0
    ∨ (match st.axis with | .x => r.length | .y => r.width) ≤ st.offset + kerf
    ∨ 35000 < (match st.axis with | .x => r.width | .y => r.length))

theorem outside_iff {kerf : Nat} {r1 : Region} (h1 : r1.number = 1) {ss : List StagedStep} (h : RegionsSound ss) (k : Nat) :
    Outside kerf (buildRegions kerf 1 ss [r1]) ss k
      ↔ ∃ a, numbered ss k = some a ∧ OffsetFault kerf r1 (ss.take (k - 1)) a := by
  refine exists_congr fun a => ?_
  constructor
  · rintro ⟨r, ha, hr, hn, hwrong⟩
    refine ⟨ha, ?_⟩
    rw [OffsetFault, buildRegions_found kerf r1 h1 ss h _ a (numbered_getElem ha) r hr hn]
    exact hwrong
  · rintro ⟨ha, hfault⟩
    obtain ⟨r, hr, hn⟩ := buildRegions_exists kerf r1 h1 ss h _ a (numbered_getElem ha)
    rw [OffsetFault, buildRegions_found kerf r1 h1 ss h _ a (numbered_getElem ha) r hr hn] at hfault
    exact ⟨r, ha, hr, hn, hfault⟩

theorem checkOffsets_numbered {kerf : Nat} {r1 : Region} (h1 : r1.number = 1) {ss : List StagedStep} (h : RegionsSound ss) :
    (∀ k, FirstAt (Outside kerf (buildRegions kerf 1 ss [r1]) ss) k → checkOffsets kerf 1 ss [r1] = some (.outOfRegion, k))
      ∧ ((∀ k, ¬ Outside kerf (buildRegions kerf 1 ss [r1]) ss k) → checkOffsets kerf 1 ss [r1] = none) :=
  (checkOffsets_spec kerf r1 ss).numbered _ (outside_iff h1 h)

/-- R41: leaf i names region 0, one that is not made, one that is cut, or one an earlier leaf names. -/
def ExtraLeaf (ss : List StagedStep) (fs : List StagedLeaf) (i : Nat) : Prop :=
  ∃ f, numbered fs i = some f ∧ (f.region = 0 ∨ 2 * ss.length + 1 < f.region ∨ (∃ st ∈ ss, st.region = f.region)
    ∨ ∃ j f', j < i ∧ numbered fs j = some f' ∧ f'.region = f.region)

theorem checkLeafExtra_numbered (ss : List StagedStep) (fs : List StagedLeaf) :
    (∀ i, FirstAt (ExtraLeaf ss fs) i → checkLeafExtra ss 1 [] fs = some (.leafExtra, i))
      ∧ ((∀ i, ¬ ExtraLeaf ss fs i) → checkLeafExtra ss 1 [] fs = none) := by
  refine (checkLeafExtra_spec ss fs).numbered _ fun i => exists_congr fun f => and_congr_right fun _ => ?_
  rw [ExtraFault, exists_mem_take]
  rfl

/-- R41: region m is made and not cut, and no leaf names it. -/
def MissingLeaf (ss : List StagedStep) (fs : List StagedLeaf) (m : Nat) : Prop :=
  1 ≤ m ∧ m ≤ 2 * ss.length + 1 ∧ (¬ ∃ st ∈ ss, st.region = m) ∧ ∀ f ∈ fs, f.region ≠ m

theorem missing_iff (ss : List StagedStep) (fs : List StagedLeaf) (m : Nat) : MissingLeaf ss fs m
    ↔ m ∈ List.range' 1 (2 * ss.length + 1) ∧ ((cutterOf ss m).isNone && (leafOn fs m).isNone) = true := by
  simp only [MissingLeaf, List.mem_range'_1, Bool.and_eq_true, cutterOf, leafOn, Option.isNone_map, Option.isNone_iff_eq_none,
    List.findIdx?_eq_none_iff, decide_eq_false_iff_not, not_exists, not_and]
  constructor
  · rintro ⟨hpos, hle, hcut, hleaf⟩; exact ⟨⟨hpos, by omega⟩, hcut, hleaf⟩
  · rintro ⟨⟨hpos, hle⟩, hcut, hleaf⟩; exact ⟨hpos, by omega, hcut, hleaf⟩

theorem checkLeafMissing_numbered (ss : List StagedStep) (fs : List StagedLeaf) :
    (∀ m, FirstAt (MissingLeaf ss fs) m → checkLeafMissing ss fs = some (.leafMissing, m))
      ∧ ((∀ m, ¬ MissingLeaf ss fs m) → checkLeafMissing ss fs = none) := by
  constructor
  · rintro m ⟨hm, hbefore⟩
    obtain ⟨hmem, hmissing⟩ := (missing_iff ss fs m).mp hm
    refine Option.map_eq_some_iff.mpr ⟨m, List.find?_range'_eq_some.mpr ⟨hmissing, hmem, fun j hj hlt => ?_⟩, rfl⟩
    rw [Bool.not_eq_true']
    by_contra hj'
    have hrange := List.mem_range'_1.mp hmem
    exact hbefore j hlt ((missing_iff ss fs j).mpr ⟨List.mem_range'_1.mpr ⟨hj, by omega⟩, by simpa using hj'⟩)
  · intro hnone
    refine Option.map_eq_none_iff.mpr (List.find?_eq_none.mpr fun m hm hmissing => ?_)
    exact hnone m ((missing_iff ss fs m).mpr ⟨hm, hmissing⟩)

/-- R42: leaf i is a piece on a region that a defect overlaps. -/
def Defective (defects : List Defect) (rs : List Region) (fs : List StagedLeaf) (i : Nat) : Prop :=
  ∃ f r, numbered fs i = some f ∧ f.kind = .piece ∧ r ∈ rs ∧ r.number = f.region
    ∧ ∃ d ∈ defects, max d.x r.x < min (d.x + d.length) (r.x + r.length)
      ∧ max d.y r.y < min (d.y + d.width) (r.y + r.width)

theorem checkDefects_numbered (defects : List Defect) {rs : List Region} (h : (rs.map (·.number)).Nodup)
    (fs : List StagedLeaf) :
    (∀ i, FirstAt (Defective defects rs fs) i → checkDefects defects rs 1 fs = some (.defectInPiece, i))
      ∧ ((∀ i, ¬ Defective defects rs fs i) → checkDefects defects rs 1 fs = none) := by
  refine (checkDefects_spec defects rs fs).numbered _ fun i => exists_congr fun f => ?_
  simp only [DefectFault, findRegion_iff h, overlapsDefect_iff, and_assoc, exists_and_left]
  rfl

end Sys2Proof.Machine
end

section
/-! PROOF. PLAN-END (R37): the checks in their order, the regions and leaves of the plan as formed, the jobs it creates. -/

namespace Sys2Proof.Machine

/-! ### The plan as formed -/

theorem regionOne_eq (slab : SlabRecord) (trim : Nat) : regionOne slab trim =
    { number := 1, x := if slab.edge = .raw then trim else 0, y := if slab.edge = .raw then trim else 0
      length := slab.length - 2 * (if slab.edge = .raw then trim else 0)
      width := slab.width - 2 * (if slab.edge = .raw then trim else 0), parent := 0
      createdBy := 0, cutBy := none, leaf := none, status := .awaiting } := by
  cases hedge : slab.edge <;> simp [regionOne, hedge]

theorem demote_eq {minLength minWidth : Nat} {rs : List Region} (h : (rs.map (·.number)).Nodup) (f : StagedLeaf) :
    ((f.kind = .remnant ∧ ∃ r ∈ rs, r.number = f.region ∧ (r.length < minLength ∨ r.width < minWidth)) →
      demote minLength minWidth rs f = ⟨f.region, .waste, f.job, f.tag, true⟩)
    ∧ (¬ (f.kind = .remnant ∧ ∃ r ∈ rs, r.number = f.region ∧ (r.length < minLength ∨ r.width < minWidth)) →
      demote minLength minWidth rs f = ⟨f.region, f.kind, f.job, f.tag, false⟩) := by
  have hsmall (r : Region) : meetsMinimum minLength minWidth r = false ↔ r.length < minLength ∨ r.width < minWidth := by
    rw [meetsMinimum, Bool.and_eq_false_iff, decide_eq_false_iff_not, decide_eq_false_iff_not, Nat.not_le, Nat.not_le]
  constructor
  · rintro ⟨hkind, r, hr, hn, hlow⟩
    simp [demote, (findRegion_iff h f.region r).mpr ⟨hr, hn⟩, (hsmall r).mpr hlow, hkind]
  · intro hbig
    cases hfind : findRegion rs f.region with
    | none => simp [demote, hfind]
    | some r =>
      obtain ⟨hr, hn⟩ := (findRegion_iff h f.region r).mp hfind
      by_cases hkind : f.kind = .remnant
      · have hmeets : meetsMinimum minLength minWidth r = true := by
          rw [← Bool.not_eq_false, hsmall]
          exact fun hlow => hbig ⟨hkind, r, hr, hn, hlow⟩
        simp [demote, hfind, hmeets]
      · simp [demote, hkind]

/-- R45: the jobs of a plan's pieces, by leaf index. -/
theorem pieceJobs_jobs (l : List PlanLeaf) :
    (pieceJobs l).map (·.1) = (l.filter fun f => decide (f.kind = .piece)).map (·.job) := by
  rw [pieceJobs, List.map_map]
  have hzip : ((l.zipIdx 1).filter fun f => decide (f.1.kind = .piece)).map (·.1) = l.filter fun f => decide (f.kind = .piece) := by
    conv_rhs => rw [← List.zipIdx_map_fst 1 l, List.filter_map]
    rfl
  rw [← hzip, List.map_map]
  rfl

theorem leafOn_eq_some {ss : List StagedStep} {fs : List StagedLeaf} (h : ∀ i, ¬ ExtraLeaf ss fs i) (n i : Nat) :
    leafOn fs n = some i ↔ ∃ f, numbered fs i = some f ∧ f.region = n :=
  findIdx_numbered (f := StagedLeaf.region)
    (fun j k a b hlt ha hb heq => h k ⟨b, hb, .inr (.inr (.inr ⟨j, a, hlt, ha, heq⟩))⟩) n i

/-! ### The checks in their order -/

/-- R44: step 0 names the charge job, leaf i the job of its piece. -/
theorem names_demoted (cfg : ConfigRecord) (kerf : Nat) (slab : SlabRecord) (g : Staging) (i j : Nat) :
    ((i = 0 ∧ j = g.header.chargeJob) ∨ ∃ f, numbered g.leaves i = some f ∧ f.kind = .piece ∧ j = f.job)
      ↔ (i = 0 ∧ j = g.header.chargeJob)
        ∨ ∃ f, (if i = 0 then none else (demotedLeaves cfg kerf slab g)[i - 1]?) = some f ∧ f.kind = .piece ∧ j = f.job := by
  refine or_congr_right ?_
  unfold numbered
  split
  · simp
  · simp only [demotedLeaves_get, Option.map_eq_some_iff]
    constructor
    · rintro ⟨f, hf, hkind, hjob⟩
      exact ⟨_, ⟨f, hf, rfl⟩, (demote_kind_piece ..).mpr hkind, hjob⟩
    · rintro ⟨_, ⟨f, hf, rfl⟩, hkind, hjob⟩
      exact ⟨f, hf, (demote_kind_piece ..).mp hkind, hjob⟩

/-! ### Adopting the plan -/

theorem adoptPlan_jobs (p : Plan) (s : State) :
    (adoptPlan p s).cost.jobs = (planJobs p).foldl (jobsWith s.boot.shopTime) s.cost.jobs := by
  rw [adoptPlan, ensureJobs_jobs]
  simp

theorem adoptPlan_plan (p : Plan) (s : State) :
    (adoptPlan p s).cut.state = .planned ∧ (adoptPlan p s).plan = { staging := none, plan := some p } := by
  unfold adoptPlan
  exact ⟨(foldl_keeps _ (fun t : State => t.cut.state) (fun t a => by simp) _ _).trans rfl,
    (foldl_keeps _ (fun t : State => t.plan) (fun t a => by simp) _ _).trans (by simp [toCut, planStands, markStands])⟩

/-- R44, R45: with check 8 passed every job of the plan is OPEN once the plan is adopted. -/
theorem adoptPlan_opens {p : Plan} {s : State} (h : checkJobs s.cost.jobs p.header.chargeJob p.leaves = none) :
    ∀ j ∈ planJobs p, ∃ e, (adoptPlan p s).jobEntry j = some e ∧ e.state = .opened := by
  have hnamed : planJobs p = ((p.header.chargeJob, 0) :: pieceJobs p.leaves).map (·.1) := rfl
  unfold checkJobs at h
  dsimp only at h
  split at h
  · cases h
  · next hnone =>
    split at h
    · cases h
    · next hroom =>
      refine (ensureJobs_opens (planJobs p) _ (fun j hj x hx => ?_) ?_).1
      · rw [hnamed] at hj
        obtain ⟨y, hy, rfl⟩ := List.mem_map.mp hj
        have hopen := List.find?_eq_none.mp hnone y hy
        rw [jobClosed_iff] at hopen
        cases hstate : x.state with
        | opened => rfl
        | closed => exact absurd ⟨x, hx, hstate⟩ hopen
      · rw [hnamed]
        exact Nat.not_lt.mp hroom

theorem checkJobs_of_checkPlan {cfg : ConfigRecord} {kerf : Nat} {slab : SlabRecord} {jobs : List JobEntry} {seqNext : Nat}
    {g : Staging} (h : checkPlan cfg kerf slab jobs seqNext g = none) :
    checkJobs jobs g.header.chargeJob (demotedLeaves cfg kerf slab g) = none := by
  simp only [checkPlan, Option.or_eq_none_iff] at h
  obtain ⟨-, -, -, -, -, -, -, hjobs, -⟩ := h
  exact hjobs

end Sys2Proof.Machine
end

section
/-! PROOF. PLAN-END settled (R37): its judgement of a staged plan, and the checks and the plan over every staging. -/

namespace Sys2Proof.Machine

/-! ### PLAN-END on a staged plan -/

theorem takePlanEnd_refused {s : State} {g : Staging} {f : CheckFault} (hcut : s.cut.state = .staging)
    (hstaged : s.plan.staging = some g) (hjudged : judgePlan s g = .inr f) :
    takePlanEnd s = reply .planEnd f.1 (.index f.2) (dropStaging s) := by
  simp only [takePlanEnd, hcut, hstaged, hjudged]

theorem takePlanEnd_adopts {s : State} {g : Staging} {p : Plan} (hcut : s.cut.state = .staging)
    (hstaged : s.plan.staging = some g) (hjudged : judgePlan s g = .inl p) :
    takePlanEnd s = reply .planEnd .ok (planFormedBody p) (adoptPlan p s) := by
  simp only [takePlanEnd, hcut, hstaged, hjudged]

theorem loadedHere_of_loaded {s : State} {id : SlabId} {r : SlabRecord} (hr : s.slab id = some r)
    (hloaded : r.state = .loaded ∧ r.holder = some s.station) : loadedHere s id = some r := by
  simp only [loadedHere, hr, (loadedBy_iff ..).mpr hloaded, if_true]

theorem loadedHere_eq_none {s : State} {id : SlabId}
    (h : ∀ r, s.slab id = some r → ¬ (r.state = .loaded ∧ r.holder = some s.station)) : loadedHere s id = none := by
  unfold loadedHere
  cases hr : s.slab id with
  | none => rfl
  | some r => exact if_neg fun hloaded => h r hr ((loadedBy_iff ..).mp hloaded)

/-- PLAN-END with a staging, in every outcome of the judgement. -/
theorem planEnd_judged (s : State) (g : Staging) (hcut : s.cut.state = .staging) (hstaged : s.plan.staging = some g) :
    ((∀ r, s.slab g.header.slab = some r → ¬ (r.state = .loaded ∧ r.holder = some s.station)) →
      takePlanEnd s = reply .planEnd .wrongSlab (.index 0) (dropStaging s))
    ∧ (∀ (r : SlabRecord) (f : CheckFault), s.slab g.header.slab = some r → r.state = .loaded ∧ r.holder = some s.station →
      checkPlan s.cfg s.bladeType.kerf r s.cost.jobs s.stock.seqNext g = some f →
      takePlanEnd s = reply .planEnd f.1 (.index f.2) (dropStaging s))
    ∧ (∀ r : SlabRecord, s.slab g.header.slab = some r → r.state = .loaded ∧ r.holder = some s.station →
      checkPlan s.cfg s.bladeType.kerf r s.cost.jobs s.stock.seqNext g = none →
      takePlanEnd s = reply .planEnd .ok (planFormedBody (formPlan s.cfg s.bladeType.kerf r g))
        (adoptPlan (formPlan s.cfg s.bladeType.kerf r g) s)) := by
  refine ⟨fun hother => ?_, fun r f hr hloaded hcheck => ?_, fun r hr hloaded hcheck => ?_⟩
  · exact takePlanEnd_refused hcut hstaged (f := (.wrongSlab, 0)) (by simp only [judgePlan, loadedHere_eq_none hother])
  · exact takePlanEnd_refused hcut hstaged (by simp only [judgePlan, loadedHere_of_loaded hr hloaded, hcheck])
  · exact takePlanEnd_adopts hcut hstaged (by simp only [judgePlan, loadedHere_of_loaded hr hloaded, hcheck])

/-- R45: the station behind a PLAN-END that passes. -/
theorem planEnd_adopted (p : Plan) (s : State) :
    let t := reply .planEnd .ok (planFormedBody p) (adoptPlan p s)
    t.cut.state = .planned ∧ t.plan = { staging := none, plan := some p }
      ∧ (t.stock = s.stock ∧ t.water = s.water ∧ t.line = s.line ∧ t.cut.blade = s.cut.blade
        ∧ t.jobEntry = (adoptPlan p s).jobEntry)
      ∧ t.cost.jobs = (p.header.chargeJob :: (p.leaves.filter fun f => decide (f.kind = .piece)).map (·.job)).foldl
          (jobsWith s.boot.shopTime) s.cost.jobs := by
  obtain ⟨hplanned, hplan⟩ := adoptPlan_plan p s
  refine ⟨?_, ?_, ⟨by simp, by simp, by simp, by simp, rfl⟩, ?_⟩
  · simpa using hplanned
  · simpa using hplan
  · simp only [reply_fields, adoptPlan_jobs, planJobs, pieceJobs_jobs]

/-! ### The regions -/

theorem regionOne_mem (kerf : Nat) (r1 : Region) (ss : List StagedStep) : r1 ∈ buildRegions kerf 1 ss [r1] := by
  obtain ⟨more, hmore⟩ := buildRegions_extends kerf r1 [] ss
  rw [List.nil_append] at hmore
  rw [hmore]
  exact List.mem_append_left _ (List.mem_singleton_self r1)

/-- R32: the region on the low side of a cut. -/
theorem lowChild_fields (k : Nat) (a : Axis) (offset : Nat) (r : Region) :
    (lowChild k a offset r).number = 2 * k ∧ (lowChild k a offset r).parent = r.number
      ∧ (lowChild k a offset r).createdBy = k ∧ (lowChild k a offset r).x = r.x ∧ (lowChild k a offset r).y = r.y
      ∧ (a = .x → (lowChild k a offset r).length = offset ∧ (lowChild k a offset r).width = r.width)
      ∧ (a = .y → (lowChild k a offset r).width = offset ∧ (lowChild k a offset r).length = r.length) := by
  cases a <;> simp [lowChild]

/-- R32: the region on the high side of a cut. -/
theorem highChild_fields (k : Nat) (a : Axis) (offset kerf : Nat) (r : Region) :
    (highChild k a offset kerf r).number = 2 * k + 1 ∧ (highChild k a offset kerf r).parent = r.number
      ∧ (highChild k a offset kerf r).createdBy = k
      ∧ (a = .x → (highChild k a offset kerf r).x = r.x + offset + kerf ∧ (highChild k a offset kerf r).y = r.y
        ∧ (highChild k a offset kerf r).length = r.length - offset - kerf ∧ (highChild k a offset kerf r).width = r.width)
      ∧ (a = .y → (highChild k a offset kerf r).y = r.y + offset + kerf ∧ (highChild k a offset kerf r).x = r.x
        ∧ (highChild k a offset kerf r).width = r.width - offset - kerf
        ∧ (highChild k a offset kerf r).length = r.length) := by
  cases a <;> simp [highChild]

/-- Settles O33: the judgement by `planEnd_judged`, and over every staging the checks in their order, each by its
`_numbered` lemma, and the regions of `buildRegions`. -/
theorem planEndJudged : Obligations.PlanEndJudged := by
  refine ⟨fun s hreach hcut => ?elsewhere, fun s g hreach hcut hstaged => ?judged,
    fun cfg kerf slab jobs seqNext g => ?checks⟩
  case elsewhere =>
    have hexec : exec .planEnd s = .next (takePlanEnd s) := next_gate rfl hreach _
    rw [hexec, takePlanEnd]
    split
    · next hstaging _ => exact absurd hstaging hcut
    · rfl
  case judged =>
    have hexec : exec .planEnd s = .next (takePlanEnd s) := next_gate rfl hreach _
    obtain ⟨hother, hfault, hpass⟩ := planEnd_judged s g hcut hstaged
    intro kerf dropped shut create
    have hdropped : dropStaging s = dropped := toCut_loaded _
    rw [hexec]
    refine ⟨fun hslab => ?_, fun r code index hr hstate hholder hcheck => ?_, fun r hr hstate hholder hcheck => ?_⟩
    · rw [hother hslab, hdropped]
    · rw [hfault r _ hr ⟨hstate, hholder⟩ hcheck, hdropped]
    · intro p kinds
      obtain ⟨hplanned, hplan, hkept, hjobs⟩ := planEnd_adopted p s
      obtain ⟨hstock, hwater, hline, hblade, hentries⟩ := hkept
      refine ⟨_, congrArg _ (hpass r hr ⟨hstate, hholder⟩ hcheck), hplanned, congrArg PlanUnit.staging hplan,
        congrArg PlanUnit.plan hplan, reply_mem .planEnd _ _ _, hstock, hwater, hline, hblade, fun st hst => ?_,
        fun j hj => ?_, hjobs⟩
      · obtain ⟨a, -, rfl⟩ := List.mem_map.mp hst
        exact ⟨rfl, rfl⟩
      · rw [hentries]
        exact adoptPlan_opens (checkJobs_of_checkPlan hcheck) j hj
  case checks =>
    intro fault p n trim rs step leaf cut first counts badRegion offGrid flat outside extra missing defective small names
      closed room remnants
    have hr1 : (regionOne slab cfg.trim).number = 1 := rfl
    have hflat : flat ↔ (regionOne slab cfg.trim).length = 0 ∨ (regionOne slab cfg.trim).width = 0 := by
      rw [regionOne_eq]
      exact or_congr Nat.sub_eq_zero_iff_le.symm Nat.sub_eq_zero_iff_le.symm
    have hjobs := checkJobs_spec jobs g.header.chargeJob (demotedLeaves cfg kerf slab g) names (names_demoted cfg kerf slab g)
    have hcounts0 (h : counts) : checkCounts g = none := if_pos h
    obtain ⟨hregion1, hregion0⟩ := checkRegions_numbered g.steps
    obtain ⟨hgrid1, hgrid0⟩ := checkGrid_numbered cfg.grid g.steps
    have hinside0 (h : ¬ flat) : checkInside kerf g.steps (regionOne slab cfg.trim)
        = checkOffsets kerf 1 g.steps [regionOne slab cfg.trim] := if_neg (hflat.not.mp h)
    have hoffsets (h : ∀ k, ¬ badRegion k) := checkOffsets_numbered (kerf := kerf) hr1 (regionsSound_of_none h)
    obtain ⟨hextra1, hextra0⟩ := checkLeafExtra_numbered g.steps g.leaves
    obtain ⟨hmissing1, hmissing0⟩ := checkLeafMissing_numbered g.steps g.leaves
    have hnodup (h : ∀ k, ¬ badRegion k) := buildRegions_nodup kerf _ hr1 g.steps (regionsSound_of_none h)
    have hdefects (h : ∀ k, ¬ badRegion k) := checkDefects_numbered slab.defects (hnodup h) g.leaves
    refine ⟨fun hcounts => ?counts, fun hcounts => ⟨fun k hk => ?region, fun hregion => ⟨fun k hk => ?grid,
      fun hgrid => ⟨fun hthin => ?flat, fun hthin => ⟨fun k hk => ?outside, fun hinside => ⟨fun i hi => ?extra,
      fun hextra => ⟨fun m hm => ?missing, fun hmissing => ⟨fun i hi => ?defect, fun hdefect => ⟨fun i hi => ?closed,
      fun hclosed unknown hdistinct hunknown => ⟨fun hfull => ?full, fun hroom => ⟨fun hids => ?ids, fun hids => ?pass⟩⟩⟩⟩⟩⟩⟩⟩⟩⟩,
      fun hregion => ?formed⟩
    case formed =>
      have hsound := regionsSound_of_none hregion
      have hnumbers : rs.map (·.number) = List.range' 1 (2 * n + 1) := buildRegions_numbers kerf _ hr1 g.steps hsound
      have hlength : rs.length = 2 * n + 1 := by rw [← List.length_map (·.number), hnumbers, List.length_range']
      refine ⟨hnumbers, ⟨_, regionOne_mem kerf _ g.steps, ?_⟩, fun k st r hst hr hn => ?_, ⟨rfl, rfl, rfl, rfl, rfl, rfl, rfl⟩,
        rfl, List.length_map _, fun i f hf => ⟨fun hsmall => ?_, fun hbig => ?_⟩, (List.length_map _).trans hlength,
        fun i r hr => ⟨cutterOf g.steps r.number, leafOn g.leaves r.number, ?_, fun k => cutterOf_eq_some g.steps hsound _ k,
          fun hextra i => leafOn_eq_some hextra _ i⟩⟩
      · rw [regionOne_eq]
        exact ⟨rfl, rfl, rfl, rfl, rfl, rfl, rfl⟩
      · obtain ⟨hlo, hhi⟩ := buildRegions_children kerf _ hr1 g.steps hsound _ st (numbered_getElem hst) r hr hn
        obtain ⟨hpos, -⟩ := numbered_bounds hst
        rw [show k - 1 + 1 = k by omega] at hlo hhi
        obtain ⟨hlon, hlop, hloc, hlox, hloy, hlosize⟩ := lowChild_fields k st.axis st.offset r
        obtain ⟨hhin, hhip, hhic, hhisize⟩ := highChild_fields k st.axis st.offset kerf r
        exact ⟨_, hlo, _, hhi, hlon, hhin, hlop, hhip, hloc, hhic, hlox, hloy,
          fun hx => ⟨(hlosize.1 hx).1, (hlosize.1 hx).2, hhisize.1 hx⟩,
          fun hy => ⟨(hlosize.2 hy).1, (hlosize.2 hy).2, hhisize.2 hy⟩⟩
      · rw [← (demote_eq (hnodup hregion) f).1 hsmall]
        exact (demotedLeaves_get cfg kerf slab g i).trans (by rw [hf]; rfl)
      · rw [← (demote_eq (hnodup hregion) f).2 hbig]
        exact (demotedLeaves_get cfg kerf slab g i).trans (by rw [hf]; rfl)
      · simp only [p, formPlan, List.getElem?_map]
        rw [show (buildRegions kerf 1 g.steps [regionOne slab cfg.trim])[i]? = some r from hr]
        rfl
    case counts =>
      have hfirst : checkCounts g = some (.tooLarge, 0) := if_neg hcounts
      simp only [fault, checkPlan, hfirst, Option.some_or]
    all_goals simp only [fault, checkPlan, hcounts0 hcounts, Option.none_or]
    case region => simp only [hregion1 k hk, Option.some_or]
    all_goals simp only [hregion0 hregion, Option.none_or]
    case grid => simp only [hgrid1 k hk, Option.some_or]
    all_goals simp only [hgrid0 hgrid, Option.none_or]
    case flat =>
      have hfirst : checkInside kerf g.steps (regionOne slab cfg.trim) = some (.outOfRegion, 0) := if_pos (hflat.mp hthin)
      simp only [hfirst, Option.some_or]
    all_goals simp only [hinside0 hthin]
    case outside => simp only [(hoffsets hregion).1 k hk, Option.some_or]
    all_goals simp only [(hoffsets hregion).2 hinside, Option.none_or]
    case extra => simp only [hextra1 i hi, Option.some_or]
    all_goals simp only [hextra0 hextra, Option.none_or]
    case missing => simp only [hmissing1 m hm, Option.some_or]
    all_goals simp only [hmissing0 hmissing, Option.none_or]
    case defect => simp only [(hdefects hregion).1 i hi, Option.some_or]
    all_goals simp only [(hdefects hregion).2 hdefect, Option.none_or]
    case closed => simp only [hjobs.1 i hi, Option.some_or]
    case full => simp only [(hjobs.2 hclosed unknown hdistinct hunknown).1 hfull, Option.some_or]
    all_goals simp only [(hjobs.2 hclosed unknown hdistinct hunknown).2 hroom, Option.none_or]
    case ids => exact if_pos hids
    case pass => exact if_neg (Nat.not_lt.mpr hids)

end Sys2Proof.Machine
end

section
/-! PROOF. An own charge (R143 to R146, R153 to R156): what the job table, the cost log, the high-water mark and the
output list hold behind it. -/

namespace Sys2Proof.Machine

/-! ### The job table -/

theorem any_job_eq_true_iff (jobs : List JobEntry) (j : Nat) :
    jobs.any (fun x => decide (x.job = j)) = true ↔ findJob jobs j ≠ none := by
  simp [findJob]

theorem jobsWith_known {jobs : List JobEntry} {j : Nat} (h : findJob jobs j ≠ none) (now : Nat) :
    jobsWith now jobs j = jobs := if_pos ((any_job_eq_true_iff jobs j).mpr h)

section
variable {jobs : List JobEntry} {j : Nat} (h : findJob jobs j = none) (now : Nat)
include h

theorem not_any_job : ¬ jobs.any (fun x => decide (x.job = j)) = true := by
  rw [any_job_eq_true_iff]
  exact fun hne => hne h

theorem jobsWith_room (hroom : jobs.length < 64) : jobsWith now jobs j = jobs ++ [newJob j .opened now] := by
  rw [jobsWith, if_neg (not_any_job h), if_pos hroom]

theorem jobsWith_evicts (hfull : 64 ≤ jobs.length) (hshut : jobs.any shutJob = true) :
    jobsWith now jobs j = jobs.eraseP shutJob ++ [newJob j .opened now] := by
  rw [jobsWith, if_neg (not_any_job h), if_neg (Nat.not_lt.mpr hfull), if_pos hshut]

theorem jobsWith_full (hfull : 64 ≤ jobs.length) (hshut : jobs.any shutJob = false) : jobsWith now jobs j = jobs := by
  rw [jobsWith, if_neg (not_any_job h), if_neg (Nat.not_lt.mpr hfull), if_neg (by simp [hshut])]

/-- A change of one job's entry changes no other. -/
theorem map_job_absent (g : JobEntry → JobEntry) : jobs.map (fun x => if x.job = j then g x else x) = jobs := by
  refine (List.map_congr_left fun x hx => if_neg ?_).trans (List.map_id jobs)
  simpa using List.find?_eq_none.mp h x hx

end

theorem findJob_append_new {jobs : List JobEntry} {j : Nat} (h : findJob jobs j = none) (now : Nat) :
    findJob (jobs ++ [newJob j .opened now]) j = some (newJob j .opened now) := by
  rw [findJob_snoc, h]
  exact if_pos rfl

/-- R143, R145: a charge to a job that has just been created behind the entries that stay. -/
theorem map_posted_append_new {jobs : List JobEntry} {j : Nat} (h : findJob jobs j = none) (now : Nat) (c : Tally) :
    (jobs ++ [newJob j .opened now]).map (fun x => if x.job = j then posted now c x else x)
      = jobs ++ [posted now c (newJob j .opened now)] := by
  rw [List.map_append, map_job_absent h]
  simp [newJob]

theorem posted_job (now : Nat) (c : Tally) (x : JobEntry) : (posted now c x).job = x.job := by
  unfold posted
  split <;> rfl

/-! ### The output list -/

theorem keptFor_of_not_water {sg : Signal} (h : isWater (.signal sg) = false) (es : List OutEntry) : keptFor sg es = es :=
  if_neg (by simp [h])

theorem emit_length_le (sg : Signal) (s : State) : (emit sg s).port.out.length ≤ s.port.out.length + 1 := by
  have hkept : (keptFor sg s.port.out).length ≤ s.port.out.length := by
    unfold keptFor
    split
    · exact List.length_filter_le ..
    · exact Nat.le_refl _
  rw [← List.length_map (·.frame), emit_frames]
  split <;> simp <;> omega

theorem signal_mem_emit {sg : Signal} (hwater : isWater (.signal sg) = false) {s : State} (h : s.port.out.length < 16) :
    .signal sg ∈ (emit sg s).port.out.map (·.frame) := by
  rw [emit_frames, keptFor_of_not_water hwater, if_pos h]
  exact List.mem_append_right _ (List.mem_singleton_self _)

theorem raise_length_le (k : FaultKind) (d : Nat) (s : State) : (raise k d s).port.out.length ≤ s.port.out.length + 1 := by
  unfold raise
  dsimp only
  split
  · exact Nat.le_succ _
  · exact emit_length_le (.fault k d s.boot.shopTime) s

/-- With room for a reply every frame in the list stays. -/
theorem frame_mem_reply {f : PortFrame} (c : Cmd) (st : Status) (b : ReplyBody) {s : State} (hroom : s.port.out.length < 16)
    (h : f ∈ s.port.out.map (·.frame)) : f ∈ (reply c st b s).port.out.map (·.frame) := by
  rw [reply_port, startTransmit_frames, addReply_appends _ (.inl hroom), List.map_append]
  exact List.mem_append_left _ h

/-! ### The charge -/

theorem createJob_length_le (j : Nat) (st : JobState) (s : State) :
    (createJob j st s).port.out.length ≤ s.port.out.length + 1 := by
  unfold createJob
  split
  · exact Nat.le_succ _
  · exact raise_length_le ..

theorem addCharge_length_le (c : Tally) (s : State) : (addCharge c s).port.out.length ≤ s.port.out.length + 1 := by
  change (ensureJob c.job s).port.out.length ≤ _
  unfold ensureJob
  split
  · exact Nat.le_succ _
  · exact createJob_length_le ..

/-- R143: with the table full and no job CLOSED the fault is raised. -/
theorem addCharge_jobFull {c : Tally} {s : State} (h : s.jobEntry c.job = none) (hfull : 64 ≤ s.cost.jobs.length)
    (hshut : s.cost.jobs.any shutJob = false) :
    (addCharge c s).boot.faults.jobFull = true
      ∧ (addCharge c s).boot.lastFault = some ⟨.jobFull, s.boot.shopTime, c.job⟩ := by
  have hcreate : createIn s.cost.jobs (newJob c.job .opened s.now) = none := by
    rw [createIn, if_neg (show ¬ s.cost.jobs.length < jobMax from Nat.not_lt.mpr hfull), if_neg (by simpa using hshut)]
  have hensure : ensureJob c.job s = raise .jobFull c.job s := by
    simp only [ensureJob, h, createJob, hcreate]
  have hboot : (addCharge c s).boot = (raise .jobFull c.job s).boot :=
    (show (addCharge c s).boot = (ensureJob c.job s).boot from rfl).trans (congrArg State.boot hensure)
  rw [hboot]
  exact ⟨rfl, rfl⟩

/-- R156: the mark behind a record, and LOG HIGH when it disarms. -/
theorem highWaterAdded_marks (s : State) :
    (highWaterAdded s).boot = s.boot
      ∧ (highWaterAdded s).cost.armed = (s.cost.armed && decide (s.cost.log.length < s.cfg.logThreshold))
      ∧ (highWaterAdded s).port.out.length ≤ s.port.out.length + 1
      ∧ (s.cost.armed = true → s.cfg.logThreshold ≤ s.cost.log.length → s.port.out.length < 16 →
        PortFrame.signal (.logHigh s.cost.log.length) ∈ (highWaterAdded s).port.out.map (·.frame)) := by
  unfold highWaterAdded
  split
  · next h =>
    refine ⟨rfl, by simp [h.1, Nat.not_lt.mpr h.2], emit_length_le (.logHigh s.cost.log.length) { s with cost := _ }, fun _ _ hroom => ?_⟩
    exact signal_mem_emit rfl hroom
  · next h =>
    refine ⟨rfl, ?_, Nat.le_succ _, fun harmed hlow _ => absurd ⟨harmed, hlow⟩ h⟩
    cases harmed : s.cost.armed with
    | false => rfl
    | true => simpa [harmed] using h

/-- R145, R146, R153, R154, R156: what an own charge to a job, offered to the log with its kind and step, makes of the
station. -/
def ChargeMade (s : State) (c : Tally) (k : LogKind) (id : SlabId) (step : Nat) (t : State) : Prop :=
  let record (d : Disposition) : LogRecord :=
    { kind := k, job := c.job, slabId := id, step := step, time := c.time, water := c.water, wear := c.wear
      slab := c.slab, volume := c.volume, length := c.length, shopTime := s.boot.shopTime, disposition := d }
  let charge := posted s.boot.shopTime c
  let blank := newJob c.job .opened s.boot.shopTime
  (s.cost.log.length < 128 →
    (∀ x, s.jobEntry c.job = some x →
      t.cost.jobs = s.cost.jobs.map (fun y => if y.job = c.job then charge y else y)
      ∧ t.cost.log = s.cost.log ++ [record (if x.state = .opened then .totals else .late)])
    ∧ (s.jobEntry c.job = none → s.cost.jobs.length < 64 →
      t.cost.jobs = s.cost.jobs ++ [charge blank] ∧ t.cost.log = s.cost.log ++ [record .totals])
    ∧ (s.jobEntry c.job = none → 64 ≤ s.cost.jobs.length → s.cost.jobs.any shutJob = true →
      t.cost.jobs = s.cost.jobs.eraseP shutJob ++ [charge blank] ∧ t.cost.log = s.cost.log ++ [record .totals])
    ∧ (s.jobEntry c.job = none → 64 ≤ s.cost.jobs.length → s.cost.jobs.any shutJob = false →
      t.cost.jobs = s.cost.jobs ∧ t.cost.log = s.cost.log ++ [record .noEntry]
      ∧ t.boot.faults.jobFull = true ∧ t.boot.lastFault = some ⟨.jobFull, s.boot.shopTime, c.job⟩)
    ∧ t.cost.armed = (s.cost.armed && decide (s.cost.log.length + 1 < s.cfg.logThreshold))
    ∧ (s.cost.armed = true → s.cfg.logThreshold ≤ s.cost.log.length + 1 → s.port.out.length < 12 →
      PortFrame.signal (.logHigh (s.cost.log.length + 1)) ∈ t.port.out.map (·.frame)))
  ∧ (128 ≤ s.cost.log.length → t.cost.log = s.cost.log ∧ t.cost.armed = s.cost.armed
    ∧ t.boot.faults.logFull = true ∧ t.boot.lastFault = some ⟨.logFull, s.boot.shopTime, c.job⟩
    ∧ (∀ x, s.jobEntry c.job = some x →
      t.cost.jobs = s.cost.jobs.map fun y => if y.job = c.job then { charge y with gap := true } else y))

/-- What a reply behind the charge leaves of it. -/
theorem ChargeMade.of_reply {s u v : State} {c : Tally} {k : LogKind} {id : SlabId} {step : Nat} (h : ChargeMade s c k id step u)
    (hcost : v.cost = u.cost) (hboot : v.boot = u.boot) (hport : v.port = u.port)
    (hroom : s.port.out.length < 12 → u.port.out.length < 16) (cmd : Cmd) (st : Status) (b : ReplyBody) :
    ChargeMade s c k id step (reply cmd st b v) := by
  obtain ⟨hspace, hfull⟩ := h
  refine ⟨fun hlog => ?_, fun hlog => ?_⟩
  · obtain ⟨hknown, hnew, hevicts, hlost, harmed, hsignal⟩ := hspace hlog
    simp only [reply_fields, hcost, hboot]
    refine ⟨hknown, hnew, hevicts, hlost, harmed, fun h1 h2 h3 => frame_mem_reply _ _ _ ?_ ?_⟩
    · rw [hport]; exact hroom h3
    · rw [hport]; exact hsignal h1 h2 h3
  · simp only [reply_fields, hcost, hboot]
    exact hfull hlog

/-- R154, R156: what a record offered to the log makes of the mark, the faults and the output list. -/
theorem offerLog_marks (r : LogRecord) (s : State) :
    (s.cost.log.length < 128 → (offerLog r s).boot = s.boot
      ∧ (offerLog r s).cost.armed = (s.cost.armed && decide (s.cost.log.length + 1 < s.cfg.logThreshold))
      ∧ (s.cost.armed = true → s.cfg.logThreshold ≤ s.cost.log.length + 1 → s.port.out.length < 16 →
        PortFrame.signal (.logHigh (s.cost.log.length + 1)) ∈ (offerLog r s).port.out.map (·.frame)))
    ∧ (128 ≤ s.cost.log.length → (offerLog r s).cost.armed = s.cost.armed ∧ (offerLog r s).boot.faults.logFull = true
      ∧ (offerLog r s).boot.lastFault = some ⟨.logFull, s.boot.shopTime, r.job⟩)
    ∧ (offerLog r s).port.out.length ≤ s.port.out.length + 1 := by
  by_cases hlog : s.cost.log.length < 128
  · have hoffer : offerLog r s = highWaterAdded { s with cost := { s.cost with log := s.cost.log ++ [r] } } := if_pos hlog
    obtain ⟨hboot, harmed, hlength, hsignal⟩ :=
      highWaterAdded_marks { s with cost := { s.cost with log := s.cost.log ++ [r] } }
    simp only [List.length_append, List.length_singleton] at harmed hsignal
    rw [hoffer]
    exact ⟨fun _ => ⟨hboot, harmed, hsignal⟩, fun hfull => absurd hlog (Nat.not_lt.mpr hfull), hlength⟩
  · have hoffer : offerLog r s = raise .logFull r.job
        { s with cost := { s.cost with jobs := mapJob r.job (fun e => { e with gap := true }) s.cost.jobs } } := if_neg hlog
    rw [hoffer]
    exact ⟨fun h => absurd h hlog, fun _ => ⟨by simp, rfl, rfl⟩, raise_length_le ..⟩

theorem ownCharge_length_le (c : Tally) (k : LogKind) (id : SlabId) (step : Nat) (s : State) :
    (ownCharge c k id step s).port.out.length ≤ s.port.out.length + 2 :=
  (offerLog_marks _ _).2.2.trans (Nat.succ_le_succ (addCharge_length_le c s))

theorem disposed_eq (x : JobEntry) : disposed (some x) = if x.state = .opened then .totals else .late := rfl

/-- R146, R153: the jobs and the log behind a charge that finds room in the log. -/
theorem ownCharge_logged {c : Tally} {s : State} (k : LogKind) (id : SlabId) (step : Nat) (h : s.cost.log.length < 128) :
    (ownCharge c k id step s).cost.jobs = jobsCharged s.boot.shopTime s.cost.jobs c
      ∧ (ownCharge c k id step s).cost.log = s.cost.log ++ [
        { kind := k, job := c.job, slabId := id, step := step, time := c.time, water := c.water, wear := c.wear
          slab := c.slab, volume := c.volume, length := c.length, shopTime := s.boot.shopTime
          disposition := disposed (findJob (jobsWith s.boot.shopTime s.cost.jobs c.job) c.job) }] := by
  have hbilled := (ownCharge_billed c k id step s).1.trans (if_pos h)
  exact ⟨congrArg Prod.fst hbilled, congrArg Prod.snd hbilled⟩

/-- R154: a full log loses the record and marks the job's entry. -/
theorem ownCharge_unlogged {c : Tally} {s : State} (k : LogKind) (id : SlabId) (step : Nat) (h : 128 ≤ s.cost.log.length) :
    (ownCharge c k id step s).cost.jobs
        = (jobsCharged s.boot.shopTime s.cost.jobs c).map (fun x => if x.job = c.job then { x with gap := true } else x)
      ∧ (ownCharge c k id step s).cost.log = s.cost.log := by
  have hbilled := (ownCharge_billed c k id step s).1.trans (if_neg (Nat.not_lt.mpr h))
  exact ⟨congrArg Prod.fst hbilled, congrArg Prod.snd hbilled⟩

/-- The charge on the job table and the log by `ownCharge_logged`, on the mark and the faults by `offerLog_marks`. -/
theorem ownCharge_made (c : Tally) (k : LogKind) (id : SlabId) (step : Nat) (s : State) :
    ChargeMade s c k id step (ownCharge c k id step s) := by
  have hlog : (addCharge c s).cost.log = s.cost.log := by simp
  have harmed : (addCharge c s).cost.armed = s.cost.armed := by simp
  have htime : (addCharge c s).boot.shopTime = s.boot.shopTime := by simp
  have hcfg : (addCharge c s).cfg = s.cfg := by simp
  obtain ⟨hspace, hfull, -⟩ := offerLog_marks
    { kind := k, job := c.job, slabId := id, step := step, time := c.time, water := c.water, wear := c.wear
      slab := c.slab, volume := c.volume, length := c.length, shopTime := s.now
      disposition := chargeDisposition c.job (ensureJob c.job s) } (addCharge c s)
  rw [hlog, harmed, hcfg] at hspace
  rw [hlog, harmed, htime] at hfull
  refine ⟨fun h128 => ?_, fun h128 => ?_⟩
  · obtain ⟨hboot, hmark, hsignal⟩ := hspace h128
    obtain ⟨hjobs, hrecord⟩ := ownCharge_logged (c := c) k id step h128
    refine ⟨fun x hx => ⟨?_, ?_⟩, fun hnone hroom => ⟨?_, ?_⟩, fun hnone hmany hshut => ⟨?_, ?_⟩,
      fun hnone hmany hshut => ⟨?_, ?_, ?_⟩, hmark, fun h1 h2 h3 => hsignal h1 h2 ?_⟩
    · rw [hjobs, jobsCharged, jobsWith_known (show findJob s.cost.jobs c.job ≠ none by simp [show findJob _ _ = _ from hx])]
    · rw [hrecord, jobsWith_known (show findJob s.cost.jobs c.job ≠ none by simp [show findJob _ _ = _ from hx]),
        show findJob s.cost.jobs c.job = some x from hx, disposed_eq]
    · rw [hjobs, jobsCharged, jobsWith_room hnone _ hroom, map_posted_append_new hnone]
    · rw [hrecord, jobsWith_room hnone _ hroom, findJob_append_new hnone, disposed_eq]
      rfl
    · rw [hjobs, jobsCharged, jobsWith_evicts hnone _ hmany hshut, map_posted_append_new (findJob_eraseP_none _ _ hnone)]
    · rw [hrecord, jobsWith_evicts hnone _ hmany hshut, findJob_append_new (findJob_eraseP_none _ _ hnone), disposed_eq]
      rfl
    · rw [hjobs, jobsCharged, jobsWith_full hnone _ hmany hshut, map_job_absent hnone]
    · rw [hrecord, jobsWith_full hnone _ hmany hshut, show findJob s.cost.jobs c.job = none from hnone]
      rfl
    · rw [show (ownCharge c k id step s).boot = (addCharge c s).boot from hboot]
      exact addCharge_jobFull hnone hmany hshut
    · have := addCharge_length_le c s
      omega
  · obtain ⟨hmark, hfault, hlast⟩ := hfull h128
    obtain ⟨hjobs, hsame⟩ := ownCharge_unlogged (c := c) k id step h128
    refine ⟨hsame, hmark, hfault, hlast, fun x hx => ?_⟩
    rw [hjobs, jobsCharged, jobsWith_known (show findJob s.cost.jobs c.job ≠ none by simp [show findJob _ _ = _ from hx]),
      List.map_map]
    refine List.map_congr_left fun y _ => ?_
    by_cases hy : y.job = c.job
    · simp [hy, posted_job]
    · simp [hy]

end Sys2Proof.Machine
end

section
/-! PROOF. CUT-HALTED and CUT-DONE before the last step (R62 to R64): the segment closed and charged, the step suspended or
done. -/

namespace Sys2Proof.Machine

/-! ### Closing the open segment -/

/-- R62: what remains to cut of a step. -/
def remainingOf (p : Plan) (st : PlanStep) : Nat :=
  (match p.regions.find? fun r => decide (r.number = st.region) with
    | some r => (match st.axis with | .x => r.width | .y => r.length)
    | none => 0) - st.doneLength

/-- R62, R67: the plan with a segment of a length closed in its step. -/
def segmentWorked (p : Plan) (k : Nat) (st : PlanStep) (f : SegmentFigures) (lc : Nat) : Plan :=
  { p with
    steps := p.steps.set k { st with doneLength := st.doneLength + lc }
    sums := if lc = 0 then p.sums
      else ⟨p.sums.time + f.time, p.sums.water + f.water, p.sums.wear + f.wear, p.sums.volume + f.volume,
        p.sums.length + lc⟩
    segments := if lc = 0 then p.segments else p.segments + 1 }

section
variable {s : State} {p : Plan} {seg : Segment} {k : Nat} {st : PlanStep} (length : Nat)
  (hplan : s.plan.plan = some p) (hseg : s.cut.segment = some seg) (hk : seg.step = k + 1) (hst : p.steps[k]? = some st)
include hplan hseg hk hst

theorem closedLength_eq : closedLength s length = min length (remainingOf p st) := by
  simp only [closedLength, hplan, hseg, hk, stepRemaining_succ hst]
  rfl

theorem closeSegment_zero (h : min length (remainingOf p st) = 0) :
    closeSegment length s = { s with cut := { s.cut with segment := none } } := by
  have hclosed : closedLength s length = 0 := (closedLength_eq length hplan hseg hk hst).trans h
  simp only [closeSegment, hplan, hseg, hclosed, if_true]

theorem closeSegment_charges (h : min length (remainingOf p st) ≠ 0) :
    closeSegment length s = chargeSegment p seg (min length (remainingOf p st)) s := by
  have hclosed := closedLength_eq length hplan hseg hk hst
  simp only [closeSegment, hplan, hseg, hclosed, h, if_false]

/-- R62, R67, R71: the units behind a closed segment. -/
theorem closeSegment_closed :
    let lc := min length (remainingOf p st)
    let f := figuresNow s seg lc
    let u := closeSegment length s
    u.plan.plan = some (segmentWorked p k st f lc)
      ∧ u.cut.blade = (if lc = 0 then s.cut.blade else { s.cut.blade with
          height := s.cut.blade.height - f.wholeWear, remainder := f.remainder, seating := false })
      ∧ (lc = 0 → u.cost = s.cost)
      ∧ (lc ≠ 0 → ChargeMade s (segmentCharge p.header.chargeJob f) .cut p.header.slab (k + 1) u)
      ∧ u.port.out.length ≤ s.port.out.length + 2
      ∧ figuresBody (closingFigures length s) = if lc = 0 then .segment 0 0 0 0 0
        else .segment lc f.duration f.volume f.wholeWear (f.time + f.water + f.wear) := by
  intro lc f u
  have hclosed : closedLength s length = lc := closedLength_eq length hplan hseg hk hst
  by_cases h0 : lc = 0
  · have hu : u = { s with cut := { s.cut with segment := none } } := closeSegment_zero length hplan hseg hk hst h0
    have hset : p.steps.set k st = p.steps := by
      obtain ⟨hlt, hget⟩ := List.getElem?_eq_some_iff.mp hst
      rw [← hget, List.set_getElem_self]
    refine ⟨?_, ?_, fun _ => ?_, fun h => absurd h0 h, ?_, ?_⟩
    · rw [hu, segmentWorked]
      simp [h0, hset, hplan]
    · rw [hu, if_pos h0]
    · rw [hu]
    · rw [hu]; exact Nat.le_add_right ..
    · simp only [closingFigures, hseg, hclosed, h0, if_true]
      rfl
  · have hu : u = chargeSegment p seg lc s := closeSegment_charges length hplan hseg hk hst h0
    have hmade := ownCharge_made (segmentCharge p.header.chargeJob f) .cut p.header.slab seg.step
      { s with
        cut := { s.cut with segment := none, blade := wornBlade f s.cut.blade }
        plan := { s.plan with plan := some (recordSegment seg.step f p) } }
    refine ⟨?_, ?_, fun h => absurd h h0, fun _ => ?_, ?_, ?_⟩
    · simp only [hu, chargeSegment, ownCharge_fields, hk, recordSegment_succ hst, segmentWorked, if_neg h0]
      rfl
    · simp only [hu, chargeSegment, ownCharge_fields, if_neg h0]
      rfl
    · rw [hu, chargeSegment, ← hk]
      exact hmade
    · rw [hu]
      exact ownCharge_length_le ..
    · simp only [closingFigures, hseg, hclosed, h0, if_false]
      rfl

end

/-! ### A waiting own DRAW -/

theorem absorbs_absorbInto (purpose : DrawPurpose) (cmd : Option Cmd) (e : QEntry) :
    absorbs (absorbInto purpose cmd e) = absorbs e := rfl

theorem any_absorbs_absorbFirst (purpose : DrawPurpose) (cmd : Option Cmd) (es : List QEntry) :
    (absorbFirst purpose cmd es).any absorbs = es.any absorbs := by
  induction es with
  | nil => rfl
  | cons e es ih =>
    unfold absorbFirst
    split
    · rw [List.any_cons, absorbs_absorbInto, List.any_cons]
    · rw [List.any_cons, List.any_cons, ih]

theorem drawWaiting_absorbDraw (purpose : DrawPurpose) (cmd : Option Cmd) (l : Line) :
    drawWaiting (absorbDraw purpose cmd l) = drawWaiting l := by
  unfold absorbDraw drawWaiting allEntries
  split
  · simp only [List.any_append, any_absorbs_absorbFirst]
  · simp only [List.any_append, List.any_flatMap, List.any_map]
    congr 2
    funext w
    by_cases hcause : w.cause = .ownDraw
    · simp [hcause, any_absorbs_absorbFirst]
    · simp [hcause]

/-- R108: an own DRAW that arises on the line waits, or is absorbed by one that does. -/
theorem drawWaiting_queueDraw {purpose : DrawPurpose} (hpurpose : purpose ≠ .lock) (cmd : Option Cmd) {s : State}
    (hline : s.boot.listenOnly = false) : drawWaiting (queueDraw purpose cmd s).line = true := by
  by_cases hwaiting : drawWaiting s.line = true
  · rw [queueDraw_absorbs purpose cmd hline hwaiting]
    exact (drawWaiting_absorbDraw ..).trans hwaiting
  · have hjoins : (queueDraw purpose cmd s).line = putNotices .ownDraw [drawEntryFor purpose cmd s] s.line := by
      simp only [queueDraw, hline, Bool.false_eq_true, if_false, hwaiting]
    rw [hjoins]
    refine List.any_eq_true.mpr ⟨_, (mem_allEntries_putNotices ..).mpr (.inr (List.mem_singleton_self _)), ?_⟩
    cases purpose with
    | lock => exact absurd rfl hpurpose
    | _ => rfl

/-! ### CUT-HALTED and CUT-DONE -/

theorem finishStep_worked {p : Plan} {k : Nat} {st : PlanStep} (hst : p.steps[k]? = some st) (f : SegmentFigures) (lc : Nat) :
    finishStep (k + 1) (segmentWorked p k st f lc) = { segmentWorked p k st f lc with
      steps := p.steps.set k { st with status := .done, doneLength := st.doneLength + lc }
      regions := p.regions.map fun r =>
        if r.createdBy = k + 1 then { r with status := if r.cutBy = none then .leaf else .whole }
        else if r.number = st.region then { r with status := .divided } else r } := by
  have hstep : (segmentWorked p k st f lc).steps[k]? = some { st with doneLength := st.doneLength + lc } := by
    obtain ⟨hlt, -⟩ := List.getElem?_eq_some_iff.mp hst
    simp [segmentWorked, hlt]
  rw [finishStep_succ hstep]
  simp only [segmentWorked, List.set_set]

theorem suspendCut_eq (length : Nat) (s : State) (hwaiting : s.cut.waiting = false) :
    suspendCut length s = { toCut .suspended (closeSegment length s) with
      cut := { (toCut .suspended (closeSegment length s)).cut with waiting := s.water.stop } } := by
  have hnone : (toCut .suspended (closeSegment length s)).cut.waiting = false := by
    simp [toCut, hwaiting]
  have hwater : (toCut .suspended (closeSegment length s)).water.stop = s.water.stop := by simp
  unfold suspendCut
  dsimp only
  rw [hwater]
  split
  · next hstop =>
    rw [setMark_stands (by simp [markPasses, toCut, hstop]), hstop]
  · next hstop =>
    rw [Bool.eq_false_iff.mpr hstop, ← hnone]

theorem takeCutHalted_refused {s : State} (length : Nat) (h : s.cut.state ≠ .cutting) :
    takeCutHalted length s = reply .cutHalted .wrongState .none s := if_neg h

theorem takeCutDone_refused {s : State} (length : Nat) (h : s.cut.state ≠ .cutting) :
    takeCutDone length s = reply .cutDone .wrongState .none s := by
  unfold takeCutDone
  split
  · next hcut _ => exact absurd hcut h
  · rfl

theorem takeCutDone_of_segment {s : State} {seg : Segment} (length : Nat) (hcut : s.cut.state = .cutting)
    (hseg : s.cut.segment = some seg) : takeCutDone length s =
      reply .cutDone .ok (figuresBody (closingFigures length s)) (endStep seg.step (closeSegment length s)) := by
  simp only [takeCutDone, hcut, hseg]

/-- R63, R66: with a step left to cut the saw asks for it in PLANNED, and the lock is released. -/
theorem endStep_next {s : State} {p : Plan} {n : Nat} (hplan : s.plan.plan = some p)
    (hpending : ∃ x ∈ (finishStep n p).steps, x.status = .pending) :
    endStep n s = queueDraw .unlock none
      (toCut .planned { s with plan := { s.plan with plan := some (finishStep n p) } }) := by
  have hnext : (nextPending (finishStep n p)).isSome = true := by
    obtain ⟨x, hx, hstatus⟩ := hpending
    rw [nextPending, Option.isSome_map, List.findIdx?_isSome, List.any_eq_true]
    exact ⟨x, hx, decide_eq_true hstatus⟩
  simp only [endStep, hplan, hnext, if_true]

theorem endStep_last {s : State} {p : Plan} {n : Nat} (hplan : s.plan.plan = some p)
    (hdone : ∀ x ∈ (finishStep n p).steps, x.status ≠ .pending) :
    endStep n s = complete (finishStep n p) { s with plan := { s.plan with plan := some (finishStep n p) } } := by
  have hnone : (nextPending (finishStep n p)).isSome = false := by
    rw [nextPending, Option.isSome_map, List.findIdx?_isSome, List.any_eq_false]
    exact fun x hx => by simpa using hdone x hx
  simp only [endStep, hplan, hnone, Bool.false_eq_true, if_false]

/-- Settles O36: the closed segment by `closeSegment_closed`, behind it the suspension or the step's end. -/
theorem segmentCloses : Obligations.SegmentCloses := by
  refine ⟨fun s length hcut => ⟨fun hreach => ?_, fun hreach => ?_⟩, ?closes⟩
  · rw [show exec (.cutHalted length) s = .next (takeCutHalted length s) from next_gate rfl hreach _,
      takeCutHalted_refused length hcut]
  · rw [show exec (.cutDone length) s = .next (takeCutDone length s) from next_gate rfl hreach _,
      takeCutDone_refused length hcut]
  case closes =>
    intro s p seg k st length hplan hcut hseg hwaiting hk hst whole lc f worked p' body j top charge blank shut record
      charged
    obtain ⟨hworked, hblade, hfree, hmade, hlength, hbody⟩ := closeSegment_closed length hplan hseg hk hst
    replace hworked : (closeSegment length s).plan.plan = some worked := hworked
    refine ⟨fun hreach => ⟨_, next_gate rfl hreach _, ?_⟩, fun hreach hpending => ⟨_, next_gate rfl hreach _, ?_⟩⟩
    · rw [takeCutHalted, if_pos hcut, suspendCut_eq length s hwaiting, hbody]
      refine ⟨rfl, rfl, rfl, reply_mem .cutHalted _ _ _, hworked, hblade, hfree, fun h => ?_, by simp, by simp, by simp⟩
      exact (hmade h).of_reply rfl rfl rfl (by omega) ..
    · have hfinish : finishStep (k + 1) worked = p' := finishStep_worked hst f lc
      rw [takeCutDone_of_segment length hcut hseg, hbody, hk, endStep_next hworked (by rw [hfinish]; exact hpending), hfinish]
      refine ⟨rfl, rfl, ?_, reply_mem .cutDone _ _ _, rfl, hblade, hfree, fun h => ?_, by simp, by simp, fun hline => ?_⟩
      · simp [toCut, hwaiting]
      · exact (hmade h).of_reply rfl rfl rfl (by omega) ..
      · rw [(reply_fields ..).2.2.2.2.2.1]
        exact drawWaiting_queueDraw (by decide) none (by simpa using hline)

end Sys2Proof.Machine
end
section
/-! PROOF. The records of a fragment are applied one after another (R6, R21, R28, R171), and the job notices (R142, R143,
R145, R148, R151). -/

namespace Sys2Proof.Machine

/-! ### What the records of a fragment leave of the receiver -/

theorem putNotices_notSending {l : Line} (cause : WaitCause) (es : List QEntry) (h : l.access ≠ .sending) :
    (putNotices cause es l).access ≠ .sending := by
  simp only [putNotices]
  split
  · exact fun hs => nomatch hs
  · exact h

theorem queueDraw_notSending {s : State} (p : DrawPurpose) (c : Option Cmd) (h : s.line.access ≠ .sending) :
    (queueDraw p c s).line.access ≠ .sending := by
  simp only [queueDraw]
  split
  · exact h
  split
  · simpa using h
  · exact putNotices_notSending _ _ h

theorem adopt_notSending {s : State} (r : SlabRecord) (h : s.line.access ≠ .sending) :
    (adopt r s).line.access ≠ .sending := by
  have hrecord : ∀ r', (recordNew r' s).line = s.line := fun r' => by simp
  have hwrite : ∀ r', (writeSlab r' s).line = s.line := fun _ => rfl
  have hend : ∀ t : State, t.line.access ≠ .sending → (endHold r.id t).line.access ≠ .sending := by
    intro t ht
    simp only [endHold]
    split
    · exact queueDraw_notSending _ _ ht
    · exact ht
  simp only [adopt]
  split
  · refine hend _ ?_
    split
    · exact (hwrite _).symm ▸ h
    · exact (hrecord _).symm ▸ h
  · split
    · exact (hwrite _).symm ▸ h
    · exact (hrecord _).symm ▸ h

theorem applyPlain_notSending {s : State} (r : SlabRecord) (h : s.line.access ≠ .sending) :
    (applyPlain r s).line.access ≠ .sending := by
  simp only [applyPlain]
  split
  · exact adopt_notSending r h
  · split
    · exact adopt_notSending r h
    · exact h

theorem applySplitRecord_notSending {s : State} (sender pre : Nat) (r : SlabRecord) (h : s.line.access ≠ .sending) :
    (applySplitRecord sender pre s r).line.access ≠ .sending := by
  simp only [applySplitRecord]
  split
  · simp only [applyChecked, answer]
    split
    · exact adopt_notSending r h
    · split
      · split
        · simp only [stockEffects]
          split <;> exact h
        · exact adopt_notSending r h
      · split
        · exact adopt_notSending r h
        · exact h
  · exact applyPlain_notSending r h

/-- R162: the records of a fragment that fits may be carried apart. -/
theorem noticeFits_apart {pre : Nat} {r : SlabRecord} {rs : List SlabRecord} (hrs : rs ≠ [])
    (h : noticeFits (.split pre (r :: rs)) = true) :
    noticeFits (.split pre [r]) = true ∧ noticeFits (.split pre rs) = true := by
  have hempty : rs.isEmpty = false := by simpa using hrs
  simp only [noticeFits, List.isEmpty_cons, List.all_cons, List.all_nil, List.map_cons, List.map_nil, List.sum_cons,
    List.sum_nil, Bool.and_eq_true, decide_eq_true_eq, Bool.not_false, Bool.and_true, true_and, hempty] at h ⊢
  obtain ⟨⟨hr, hall⟩, hsize⟩ := h
  exact ⟨⟨hr, by omega⟩, hall, by omega⟩

/-- A frame heard in one state is heard in another with the same receiver. -/
theorem Heard.of_same {sender index count : Nat} {n m : Notice} {s t : State} (h : Heard sender index count n s)
    (hj : t.joined = s.joined) (ha : s.line.access ≠ .sending → t.line.access ≠ .sending)
    (hm : t.line.midFrame = s.line.midFrame) (hs : t.station = s.station) (hk : kindCode m = kindCode n)
    (hfit : noticeFits m = true) : Heard sender index count m t := by
  obtain ⟨joined, access, mid, low, high, other, fragment, -⟩ := h
  exact ⟨hj.trans joined, ha access, hm.trans mid, low, high, hs ▸ other, hk ▸ fragment, hfit⟩

theorem Heard.fits {sender index count : Nat} {n : Notice} {s : State} (h : Heard sender index count n s) :
    noticeFits n = true :=
  h.2.2.2.2.2.2.2

theorem Heard.notOwn {sender index count : Nat} {n : Notice} {s : State} (h : Heard sender index count n s) :
    sender ≠ s.station :=
  h.2.2.2.2.2.1

/-- Settles O54. The state behind the first record still hears the sender, so the rest of the fragment is applied there. -/
theorem fragmentsInOrder : Obligations.FragmentsInOrder := by
  unfold Obligations.FragmentsInOrder
  intro s sender index count pre r rs hrs
  constructor
  · intro h
    obtain ⟨hfirst, hrest⟩ := noticeFits_apart hrs h.fits
    have hone : Heard sender index count (.split pre [r]) s := h.of_same rfl id rfl rfl rfl hfirst
    have hbehind : Heard sender index count (.split pre rs) (applySplitRecord sender pre s r) :=
      h.of_same (by simp) (applySplitRecord_notSending _ _ _) (by simp) (by simp) rfl hrest
    refine ⟨applySplitRecord sender pre s r, congrArg Host.Outcome.next (hear_of_heard hone _), ?_⟩
    exact congrArg Host.Outcome.next ((hear_of_heard h _).trans
      (hear_of_heard hbehind (applySplit sender pre rs)).symm)
  · intro h
    obtain ⟨hfirst, hrest⟩ := noticeFits_apart (pre := pre) hrs h.fits
    have hone : Heard sender index count (.stockState [r]) s := h.of_same rfl id rfl rfl rfl hfirst
    have hbehind : Heard sender index count (.stockState rs) (applyPlain r s) :=
      h.of_same (by simp) (applyPlain_notSending _) (by simp) (by simp) rfl hrest
    refine ⟨applyPlain r s, congrArg Host.Outcome.next (hear_of_heard hone _), ?_⟩
    exact congrArg Host.Outcome.next ((hear_of_heard h _).trans
      (hear_of_heard hbehind (applyStockState rs)).symm)

/-! ### The job table -/

/-- The state with another job table. -/
def withJobs (s : State) (jobs : List JobEntry) : State := { s with cost := { s.cost with jobs := jobs } }

section
variable {s : State} (j : Nat) (st : JobState)

theorem createJob_room (hroom : s.cost.jobs.length < 64) :
    createJob j st s = withJobs s (s.cost.jobs ++ [newJob j st s.boot.shopTime]) := by
  rw [createJob, createIn, if_pos (show _ < jobMax from hroom)]
  rfl

theorem createJob_evicts (hfull : 64 ≤ s.cost.jobs.length) (hshut : s.cost.jobs.any shutJob = true) :
    createJob j st s = withJobs s (s.cost.jobs.eraseP shutJob ++ [newJob j st s.boot.shopTime]) := by
  rw [createJob, createIn, if_neg (show ¬ _ < jobMax from Nat.not_lt.mpr hfull), if_pos hshut]
  rfl

theorem createJob_full (hfull : 64 ≤ s.cost.jobs.length) (hshut : s.cost.jobs.any shutJob = false) :
    createJob j st s = raise .jobFull j s := by
  have hnone : createIn s.cost.jobs (newJob j st s.now) = none := by
    rw [createIn, if_neg (show ¬ _ < jobMax from Nat.not_lt.mpr hfull), if_neg (ne_true_of_eq_false hshut)]
  rw [createJob, hnone]

end

/-- In a table of different jobs a change of one job's entry is a change of the entry found. -/
theorem mapJob_found {jobs : List JobEntry} {j : Nat} {e : JobEntry} (f : JobEntry → JobEntry)
    (hnodup : (jobs.map (·.job)).Nodup) (h : findJob jobs j = some e) :
    mapJob j f jobs = jobs.map fun x => if x.job = j then f e else x := by
  refine List.map_congr_left fun x hx => ?_
  obtain ⟨he, hmem⟩ : e.job = j ∧ e ∈ jobs := ⟨by simpa using List.find?_some h, List.mem_of_find?_eq_some h⟩
  split
  · next hj => rw [List.inj_on_of_nodup_map hnodup hx hmem (hj.trans he.symm)]
  · rfl

theorem mapJob_append_new {jobs : List JobEntry} {j : Nat} (h : findJob jobs j = none) (f : JobEntry → JobEntry)
    (st : JobState) (now : Nat) : mapJob j f (jobs ++ [newJob j st now]) = jobs ++ [f (newJob j st now)] := by
  rw [mapJob, List.map_append, map_job_absent h]
  exact congrArg (jobs ++ [·]) (if_pos (Eq.refl j))

theorem chargeEntry_opened {e : JobEntry} (h : e.state = .opened) (t : Tally) (now : Nat) :
    chargeEntry t now e = { chargeTotals t e with lastChange := now } := by
  simp only [chargeEntry, h]

theorem chargeEntry_closed {e : JobEntry} (h : e.state = .closed) (t : Tally) (now : Nat) :
    chargeEntry t now e = { chargeLate t e with lastChange := now } := by
  simp only [chargeEntry, h]

theorem addCharge_known {s : State} {t : Tally} {e : JobEntry} (hnodup : (s.cost.jobs.map (·.job)).Nodup)
    (h : s.jobEntry t.job = some e) : addCharge t s
      = withJobs s (s.cost.jobs.map fun x => if x.job = t.job then chargeEntry t s.boot.shopTime e else x) := by
  have hknown : ensureJob t.job s = s := by rw [ensureJob, h]
  rw [addCharge, hknown, mapJob_found _ hnodup h]
  rfl

theorem addCharge_unknown {s : State} {t : Tally} (h : s.jobEntry t.job = none) :
    (s.cost.jobs.length < 64 → addCharge t s = withJobs s
      (s.cost.jobs ++ [chargeEntry t s.boot.shopTime (newJob t.job .opened s.boot.shopTime)]))
    ∧ (64 ≤ s.cost.jobs.length → s.cost.jobs.any shutJob = true → addCharge t s = withJobs s
      (s.cost.jobs.eraseP shutJob ++ [chargeEntry t s.boot.shopTime (newJob t.job .opened s.boot.shopTime)]))
    ∧ (64 ≤ s.cost.jobs.length → s.cost.jobs.any shutJob = false → addCharge t s = raise .jobFull t.job s) := by
  have hensure : ensureJob t.job s = createJob t.job .opened s := by rw [ensureJob, h]
  refine ⟨fun hroom => ?_, fun hfull hshut => ?_, fun hfull hshut => ?_⟩
  · rw [addCharge, hensure, createJob_room _ _ hroom]
    simp only [withJobs, mapJob_append_new h]
    rfl
  · rw [addCharge, hensure, createJob_evicts _ _ hfull hshut]
    simp only [withJobs, mapJob_append_new (findJob_eraseP_none _ _ h)]
    rfl
  · rw [addCharge, hensure, createJob_full _ _ hfull hshut]
    have hcost : (raise .jobFull t.job s).cost = s.cost := by simp
    simp only [mapJob, hcost, map_job_absent h]
    rfl

theorem applyJobState_known {s : State} {j : Nat} {e : JobEntry} (hnodup : (s.cost.jobs.map (·.job)).Nodup)
    (h : s.jobEntry j = some e) (st : JobState) : applyJobState j st s
      = withJobs s (s.cost.jobs.map fun x => if x.job = j then setJobState st s.boot.shopTime e else x) := by
  rw [applyJobState, h]
  exact congrArg (withJobs s) (mapJob_found _ hnodup h)

theorem applyJobState_unknown {s : State} {j : Nat} (h : s.jobEntry j = none) (st : JobState) :
    applyJobState j st s = createJob j st s := by rw [applyJobState, h]

/-- A state that answers no command is left as the owner made it. -/
theorem applyJobNotice_heard {s : State} {sender j : Nat} {i : Instr} {st : JobState}
    (hi : (i = .jobOpenNotice sender j ∧ st = .opened ∧ Heard sender 1 1 (.jobOpen j) s)
        ∨ (i = .jobCloseNotice sender j ∧ st = .closed ∧ Heard sender 1 1 (.jobClose j) s)) :
    exec i s = .next (applyJobState j st s) := by
  obtain ⟨rfl, rfl, h⟩ | ⟨rfl, rfl, h⟩ := hi
  · refine congrArg Host.Outcome.next ((hear_of_heard h _).trans ?_)
    simp only [applyJobOpen, answer]
    split <;> rfl
  · exact congrArg Host.Outcome.next (hear_of_heard h _)

theorem applyTally_heard {s : State} {sender : Nat} {t : Tally} (h : Heard sender 1 1 (.tally t) s) :
    exec (.tallyNotice sender t) s = .next (if t.job = 0 then s else addCharge t s) := by
  refine congrArg Host.Outcome.next ((hear_of_heard h _).trans ?_)
  simp [applyTally, h.notOwn]

/-- Settles O58. -/
theorem jobNotices : Obligations.JobNotices := by
  unfold Obligations.JobNotices
  intro s sender big blank shut with_ changed
  refine ⟨fun hnodup t e h hjob he => ?_, fun t h => ⟨fun hjob => ?_, fun hjob hnone hfull hshut => ?_, ?_⟩, ?_⟩
  · have hexec : exec (.tallyNotice sender t) s = .next (addCharge t s) := by rw [applyTally_heard h, if_neg hjob]
    constructor
    · intro hst
      rw [hexec, addCharge_known hnodup he, chargeEntry_opened hst]
      rfl
    · intro hst
      rw [hexec, addCharge_known hnodup he, chargeEntry_closed hst]
      rfl
  · rw [applyTally_heard h, if_pos hjob]
  · rw [applyTally_heard h, if_neg hjob, (addCharge_unknown hnone).2.2 hfull hshut]
  · intro charged
    have hcharged : chargeEntry t s.boot.shopTime (newJob t.job .opened s.boot.shopTime) = charged := by
      simp [chargeEntry, newJob, chargeTotals, satAdd, sumMax, charged, blank, big]
    constructor
    · intro hjob hnone hroom
      rw [applyTally_heard h, if_neg hjob, (addCharge_unknown hnone).1 hroom, hcharged]
      rfl
    · intro hjob hnone hfull hshut
      rw [applyTally_heard h, if_neg hjob, (addCharge_unknown hnone).2.1 hfull hshut, hcharged]
      rfl
  · intro j i st hi
    rw [applyJobNotice_heard hi]
    refine ⟨fun hnodup e he => ?_, fun hnone hroom => ?_, fun hnone hfull hshut => ?_, fun hnone hfull hshut => ?_⟩
    · have hset : setJobState st s.boot.shopTime e
          = { e with state := st, lastChange := if e.state = st then e.lastChange else s.boot.shopTime } := by
        unfold setJobState
        split
        · next hst => subst hst; rfl
        · rfl
      rw [applyJobState_known hnodup he, hset]
      rfl
    · rw [applyJobState_unknown hnone, createJob_room _ _ hroom]
      rfl
    · rw [applyJobState_unknown hnone, createJob_evicts _ _ hfull hshut]
      rfl
    · rw [applyJobState_unknown hnone, createJob_full _ _ hfull hshut]

end Sys2Proof.Machine
end
section
/-! PROOF. What an event of the water unit leaves behind its follow-ons (R112, R114, R126), and the expiries of the claim
window, an orphan watch, priming, the refresh timer and an age timer (R14, R16, R78, R113, R117). -/

namespace Sys2Proof.Machine

/-! ### The follow-ons -/

section
variable (before : State) (by_ : Nat) (freed override : Bool) (s : State)

theorem evaluateOverdraw_water :
    (evaluateOverdraw by_ s).water = { s.water with overdraw := overdrawn s.water } := by
  simp only [evaluateOverdraw]
  split
  · next h => simp [h.1]
  · rfl

/-- R112: of the water view the follow-ons change the OVERDRAW condition alone. -/
theorem followOn_water : (followOn before by_ freed override s).water
    = { s.water with overdraw := overdrawn s.water } := by
  rw [← evaluateOverdraw_water by_ s]
  simp only [followOn, promptCheck, signalHalt, evaluateMark, signalWater]
  (repeat' split) <;> simp

theorem followOn_boot : (followOn before by_ freed override s).boot = (evaluateOverdraw by_ s).boot := by
  simp only [followOn, promptCheck, signalHalt, evaluateMark, signalWater]
  (repeat' split) <;> simp

/-- R112, R61: of the cut unit they change the waiting mark alone. -/
theorem followOn_cut : (followOn before by_ freed override s).cut
    = { s.cut with waiting := (followOn before by_ freed override s).cut.waiting } := by
  obtain ⟨hstate, hheld, hsegment, hblade, hparked, hpriming, hleft⟩ :
      (followOn before by_ freed override s).cut.state = s.cut.state
      ∧ (followOn before by_ freed override s).cut.held = s.cut.held
      ∧ (followOn before by_ freed override s).cut.segment = s.cut.segment
      ∧ (followOn before by_ freed override s).cut.blade = s.cut.blade
      ∧ (followOn before by_ freed override s).cut.parked = s.cut.parked
      ∧ (followOn before by_ freed override s).cut.priming = s.cut.priming
      ∧ (followOn before by_ freed override s).cut.splitLeft = s.cut.splitLeft := by simp
  dsimp only
  rw [← hstate, ← hheld, ← hsegment, ← hblade, ← hparked, ← hpriming, ← hleft]

end

/-- R114: what the prompt check asks beside freed water. -/
def prompts (s : State) : Prop :=
  s.boot.runState = .running ∧ s.boot.listenOnly = false ∧ s.ownDraw.locked = false ∧ s.ownGrant < s.water.ownRequest

section
variable {before s : State} {by_ : Nat} {freed override : Bool}

/-- R112: the states the follow-ons pass through before the prompt check read as the first. -/
theorem followOn_line_of_reads {t : State} (hline : t.line = s.line) (hboot : t.boot.runState = s.boot.runState)
    (hlisten : t.boot.listenOnly = s.boot.listenOnly) (hdraw : t.ownDraw = s.ownDraw)
    (hrequest : t.water.ownRequest = s.water.ownRequest) : (promptCheck freed t).line = (promptCheck freed s).line := by
  have hgrant : t.ownGrant = s.ownGrant := congrArg DrawEntry.granted hdraw
  simp only [promptCheck, hboot, hlisten, hdraw, hgrant, hrequest]
  split
  · simp only [queueDraw, hlisten, hline, drawEntryFor, hrequest, hgrant]
  · exact hline

theorem followOn_line : (followOn before by_ freed override s).line = (promptCheck freed s).line := by
  simp only [followOn]
  refine followOn_line_of_reads ?_ ?_ ?_ ?_ ?_ <;> split <;> simp

theorem promptCheck_queues (h : prompts s) : promptCheck true s = queueDraw .prompt none s := by
  rw [promptCheck, if_pos ⟨rfl, h⟩]

theorem promptCheck_idle (h : freed = false ∨ ¬ prompts s) : promptCheck freed s = s := by
  refine if_neg fun ⟨hfreed, hprompts⟩ => ?_
  obtain h | h := h
  · exact Bool.false_ne_true (h ▸ hfreed)
  · exact h hprompts

/-- R61, R112: with a WATER-OVERRIDE, or a change of the own grant or of the stop, the mark is evaluated. -/
theorem followOn_waiting (h : s.ownGrant ≠ before.ownGrant ∨ s.water.stop ≠ before.water.stop ∨ override = true) :
    (followOn before by_ freed override s).cut.waiting
      = (evaluateMark (signalWater before.ownGrant (evaluateOverdraw by_ s))).cut.waiting := by
  have hhalt : ∀ t : State, (promptCheck freed (signalHalt before.water.stop t)).cut = t.cut := fun t => by simp
  simp only [followOn, hhalt]
  rw [if_pos]
  simpa using h

end

/-! ### The expiries -/

theorem exec_windowExpiry {s : State} {n : Nat} (hin : s.inService = true) (hw : s.stock.window = some n) :
    exec .claimWindowExpiry s = .next (windowExpired s) :=
  congrArg Host.Outcome.next (if_pos (by rw [runs, hin, hw]; rfl))

theorem exec_primingEnd {s : State} {n : Nat} (hin : s.inService = true) (hw : s.cut.priming = some n) :
    exec .primingEnd s = .next (primingEnds s) :=
  congrArg Host.Outcome.next (if_pos (by rw [runs, hin, hw]; rfl))

theorem exec_refreshExpiry {s : State} {n : Nat} (hin : s.inService = true) (hw : s.water.refresh = some n) :
    exec .refreshTimerExpiry s = .next (refreshExpired s) :=
  congrArg Host.Outcome.next (if_pos (by rw [runs, hin, hw]; rfl))

theorem emit_line (sg : Signal) (s : State) : (emit sg s).line = s.line := rfl

/-- R14: LAPSED is signalled and a LAPSE joins an open queue. -/
theorem lapse_open {s : State} {r : SlabRecord} (hslab : s.heldSlab = some r) (hstate : r.state = .claimed)
    (hholder : r.holder = some s.station) (hopen : QueueOpen s) : lapse s
      = { emit (.lapsed r.id) s with line := withEntry (entry (.lapse r.version (freedRecord r)) none) s.line } := by
  obtain ⟨hlisten, hroom⟩ := hopen
  rw [lapse, hslab]
  dsimp only
  rw [if_pos ⟨hstate, hholder⟩, queueNotices, if_neg (by simp [hlisten]), emit_line, putNotices_open _ _ _ hroom]

theorem windowExpired_claimed {s : State} {r : SlabRecord} (hslab : s.heldSlab = some r)
    (hstate : r.state = .claimed) (hholder : r.holder = some s.station) : windowExpired s =
      if s.line.queue.any (holdsExpiry r.id) = true then
        { s with stock := { s.stock with window := none, heldExpiry := true } }
      else lapse { s with stock := { s.stock with window := none } } := by
  rw [windowExpired, hslab]
  exact if_pos ⟨hstate, hholder⟩

/-- R61: with every check passing CLEAR-TO-CUT is signalled, and the mark that was set is cleared at once. -/
theorem setMark_passes {s : State} (h : markPasses { s with cut := { s.cut with waiting := true } } = true) :
    setMark s = { emit (.clearToCut (stepToSignal s)) s with cut := { s.cut with waiting := false } } := by
  rw [setMark, evaluateMark, if_pos ⟨rfl, h⟩]
  rfl

theorem markPasses_planned {s : State} (h : s.cut.state = .planned) : markPasses s = (waitReason s).isNone := by
  simp [markPasses, h]

/-- R57, R61: the checks that remain as priming ends. -/
theorem markPasses_primed {s : State} (h : s.cut.state = .planned) :
    markPasses { s with cut := { s.cut with priming := none, waiting := true } } = true
      ↔ s.cut.parked = false ∧ s.water.stop = false ∧ s.bladeType.wornLimit < s.cut.blade.height
        ∧ minWetting s.bladeType ≤ s.ownGrant := by
  rw [markPasses_planned (by exact h), Option.isNone_iff_eq_none, waitReason_eq_none_iff]
  exact ⟨fun ⟨hp, _, hrest⟩ => ⟨hp, hrest⟩, fun ⟨hp, hrest⟩ => ⟨hp, rfl, hrest⟩⟩

theorem stepToSignal_planned {s : State} {p : Plan} {n : Nat} (hcut : s.cut.state = .planned)
    (hplan : s.plan.plan = some p) (hnext : nextPending p = some n) : stepToSignal s = n := by
  rw [stepToSignal, hplan]
  dsimp only
  rw [if_pos hcut, hnext]
  rfl

theorem primingEnds_planned {s : State} (h : s.cut.state = .planned) :
    primingEnds s = setMark { s with cut := { s.cut with priming := none } } := if_pos h

theorem removeDraw_peer {s : State} {n : Nat} (h : n ≠ s.station) :
    (removeDraw n s).water = { s.water with
      draws := s.water.draws.filter fun x => decide (x.station ≠ n)
      overdraw := decide (s.water.capacity < lockedSum (s.water.draws.filter fun x => decide (x.station ≠ n))) } := by
  rw [removeDraw, if_neg h, followOn_water]
  simp only [overdrawn, decide_not]

/-- Settles O60. -/
theorem ownTimers : Obligations.OwnTimers := by
  unfold Obligations.OwnTimers
  intro s hin
  refine ⟨fun n r hw hslab hstate hholder => ⟨fun hopen hnone => ?_, fun hwaits => ?_⟩,
    fun e w he hwatch hopen => ?_, fun n hpriming => ⟨fun hcut => ?_, fun hcut => ?_⟩,
    fun n hw => ?_, fun station n d hpeer hd hage => ?_⟩
  · rw [exec_windowExpiry hin hw, windowExpired_claimed hslab hstate hholder, if_neg (ne_true_of_eq_false hnone),
      lapse_open (by exact hslab) hstate (by exact hholder) (by exact hopen)]
    rfl
  · rw [exec_windowExpiry hin hw, windowExpired_claimed hslab hstate hholder, if_pos hwaits]
  · refine congrArg Host.Outcome.next ((if_pos hin).trans ?_)
    obtain ⟨hlisten, hroom⟩ := hopen
    simp only [orphanExpired, he, hwatch, queueNotices, hlisten, Bool.false_eq_true, if_false,
      putNotices_open _ _ _ hroom]
    rfl
  · rw [exec_primingEnd hin hpriming, primingEnds, if_neg hcut]
  · rw [exec_primingEnd hin hpriming, primingEnds_planned hcut]
    intro ready
    have hready := markPasses_primed hcut
    refine ⟨fun hfails => ?_, fun hpass => ⟨stepToSignal s, fun p n => stepToSignal_planned hcut, ?_⟩⟩
    · rw [setMark_stands (Bool.eq_false_iff.mpr fun h => hfails (hready.mp h))]
    · rw [setMark_passes (hready.mpr hpass)]
      rfl
  · rw [exec_refreshExpiry hin hw]
    refine ⟨fun hrequest hgrant hlock => ?_, fun hdue => ?_⟩
    · rw [refreshExpired, if_neg (by simp [hrequest, hgrant, hlock])]
    · rw [refreshExpired, if_pos hdue]
      refine ⟨fun hlisten => ?_, fun ⟨hlisten, hroom⟩ hnone => ?_⟩
      · rw [queueDraw, if_pos hlisten]
      · rw [queueDraw_joins _ _ (by exact hlisten) (by exact hnone) (by exact hroom)]
        rfl
  · refine ⟨removeDraw station s, ?_, removeDraw_peer hpeer, by simp⟩
    have hages : agesHere station s = true := by rw [agesHere, hd]; simp [hage]
    exact congrArg Host.Outcome.next (if_pos ⟨hin, hages⟩)

end Sys2Proof.Machine
end
section
/-! PROOF. A heard DRAW (R109 to R112, R114, R126), and a heard PLANT, a WATER-OVERRIDE and the silence of the plant (R65,
R120, R122, R125). -/

namespace Sys2Proof.Machine

/-! ### One entry under the fit rule -/

theorem fitTable_lockedSum (capacity : Nat) (ds : List DrawEntry) : lockedSum (fitTable capacity ds) = lockedSum ds :=
  takeExcess_lockedSum ..

theorem findDraw_cons (d : DrawEntry) (ds : List DrawEntry) (n : Nat) :
    findDraw (d :: ds) n = if d.station = n then some d else findDraw ds n := by
  simp only [findDraw, List.find?_cons]
  by_cases h : d.station = n <;> simp [h]

/-- An entry the fit rule may have reduced. -/
def reducedTo (g : Nat) (d : DrawEntry) : DrawEntry := { d with granted := g }

/-- R111: the fit rule leaves the entry of a station its place, a locked one as it is, another with a grant no greater. -/
theorem findDraw_takeExcess (ds : List DrawEntry) (x n : Nat) :
    (findDraw ds n = none → findDraw (takeExcess ds x).1 n = none)
    ∧ ∀ d, findDraw ds n = some d → ∃ g ≤ d.granted, (d.locked = true → g = d.granted)
      ∧ findDraw (takeExcess ds x).1 n = some (reducedTo g d) := by
  induction ds with
  | nil => exact ⟨fun _ => rfl, fun d hd => nomatch hd⟩
  | cons e es ih =>
    rw [findDraw_cons, takeExcess]
    by_cases he : e.station = n
    · rw [if_pos he]
      refine ⟨fun h => (nomatch h), fun d hd => ?_⟩
      cases hd
      by_cases hlock : e.locked = true
      · rw [if_pos hlock, findDraw_cons, if_pos he]
        exact ⟨e.granted, Nat.le_refl _, fun _ => rfl, rfl⟩
      · rw [if_neg hlock, findDraw_cons, if_pos (by exact he)]
        exact ⟨_, Nat.sub_le .., fun h => absurd h hlock, rfl⟩
    · rw [if_neg he]
      have hrest : findDraw (if e.locked = true then (e :: (takeExcess es x).1, (takeExcess es x).2)
          else ({ e with granted := e.granted - min e.granted (takeExcess es x).2 } :: (takeExcess es x).1,
            (takeExcess es x).2 - min e.granted (takeExcess es x).2)).1 n = findDraw (takeExcess es x).1 n := by
        split <;> rw [findDraw_cons, if_neg (by exact he)]
      rw [hrest]
      exact ih

theorem findDraw_fitTable_locked {ds : List DrawEntry} {n : Nat} {d : DrawEntry} (capacity : Nat)
    (h : findDraw ds n = some d) (hlock : d.locked = true) : findDraw (fitTable capacity ds) n = some d := by
  obtain ⟨g, -, heq, hfind⟩ := (findDraw_takeExcess ds _ n).2 d h
  rw [fitTable, hfind, heq hlock]
  rfl

section
variable (s : State)

/-- R111: the fit rule leaves the own lock, and the own grant grows by nothing. -/
theorem fit_ownDraw : (fit s).ownDraw.locked = s.ownDraw.locked ∧ (fit s).ownGrant ≤ s.ownGrant := by
  have hfit : (fit s).ownDraw
      = (findDraw (takeExcess s.water.draws (unlockedSum s.water.draws - (s.water.capacity
        - lockedSum s.water.draws))).1 s.station).getD (DrawEntry.own s.station) := rfl
  rw [State.ownGrant, State.ownGrant, hfit, State.ownDraw]
  cases hown : findDraw s.water.draws s.station with
  | none =>
    rw [(findDraw_takeExcess _ _ _).1 hown]
    exact ⟨rfl, Nat.le_refl _⟩
  | some d =>
    obtain ⟨g, hle, -, hfind⟩ := (findDraw_takeExcess s.water.draws _ _).2 d hown
    rw [hfind]
    exact ⟨rfl, hle⟩

end

/-! ### What the follow-ons signal -/

section
variable (s : State) (n : Nat)

theorem evaluateOverdraw_length_le : (evaluateOverdraw n s).port.out.length ≤ s.port.out.length + 1 := by
  unfold evaluateOverdraw
  split
  · exact raise_length_le ..
  · exact Nat.le_succ _

theorem signalWater_length_le : (signalWater n s).port.out.length ≤ s.port.out.length + 1 := by
  unfold signalWater
  split
  · exact Nat.le_succ _
  · exact emit_length_le ..

theorem evaluateMark_length_le : (evaluateMark s).port.out.length ≤ s.port.out.length + 1 := by
  unfold evaluateMark
  split
  · exact emit_length_le (.clearToCut _) _
  · exact Nat.le_succ _

end

section
variable {before s : State} {by_ : Nat} {freed override : Bool}

theorem promptCheck_port (freed : Bool) (s : State) : (promptCheck freed s).port = s.port := by simp

theorem evaluateOverdraw_port_same (h : s.water.overdraw = overdrawn s.water) : (evaluateOverdraw by_ s).port = s.port := by
  rw [evaluateOverdraw, if_neg fun ⟨ho, hnot⟩ => by rw [← h, hnot] at ho; cases ho]

theorem frame_mem_evaluateMark {f : PortFrame} (h : f ∈ s.port.out.map (·.frame)) :
    f ∈ (evaluateMark s).port.out.map (·.frame) := by
  unfold evaluateMark
  split
  · rw [emit_frames, keptFor_of_not_water rfl]
    exact List.mem_append_left _ h
  · exact h

/-- R112: with neither grant nor stop nor OVERDRAW changed nothing is signalled. -/
theorem followOn_port_same (hgrant : s.ownGrant = before.ownGrant) (hstop : s.water.stop = before.water.stop)
    (hover : s.water.overdraw = overdrawn s.water) : (followOn before by_ freed false s).port = s.port := by
  have hover' := evaluateOverdraw_port_same (by_ := by_) hover
  have hwater : signalWater before.ownGrant (evaluateOverdraw by_ s) = evaluateOverdraw by_ s := by
    rw [signalWater, if_pos (by simpa using hgrant)]
  have hhalt : signalHalt before.water.stop (evaluateOverdraw by_ s) = evaluateOverdraw by_ s := by
    rw [signalHalt, if_neg]
    intro ⟨hbefore, hset, _⟩
    have : s.water.stop = true := by simpa using hset
    rw [hstop, hbefore] at this
    cases this
  have hmark : ¬ ((evaluateOverdraw by_ s).ownGrant ≠ before.ownGrant
      ∨ (evaluateOverdraw by_ s).water.stop ≠ before.water.stop ∨ false = true) := by
    simp [hgrant, hstop]
  simp only [followOn, hwater]
  rw [if_neg hmark, hhalt, promptCheck_port, hover']

/-- R112, step 2: WATER is signalled for a change of the own grant. -/
theorem water_mem_followOn (hgrant : s.ownGrant ≠ before.ownGrant) (hstop : s.water.stop = before.water.stop)
    (hroom : s.port.out.length < 14) :
    PortFrame.signal (.water s.ownGrant s.water.ownRequest s.ownDraw.locked s.water.capacity s.water.stop s.water.stale)
      ∈ (followOn before by_ freed override s).port.out.map (·.frame) := by
  have hover := evaluateOverdraw_length_le s by_
  have hsignal : .signal (waterSignal (evaluateOverdraw by_ s))
      ∈ (signalWater before.ownGrant (evaluateOverdraw by_ s)).port.out.map (·.frame) := by
    rw [signalWater, if_neg (by simpa using hgrant), emit_frames]
    refine List.mem_append_right _ ?_
    rw [if_pos]
    · exact List.mem_singleton_self _
    · refine Nat.lt_of_le_of_lt (?_ : _ ≤ (evaluateOverdraw by_ s).port.out.length) (by omega)
      unfold keptFor
      split
      · exact List.length_filter_le ..
      · exact Nat.le_refl _
  have hread : waterSignal (evaluateOverdraw by_ s) = waterSignal s := by simp [waterSignal]
  rw [hread] at hsignal
  have hhalt : ∀ t : State, t.water.stop = s.water.stop → signalHalt before.water.stop t = t := by
    intro t ht
    rw [signalHalt, if_neg]
    intro ⟨hbefore, hset, _⟩
    rw [ht, hstop, hbefore] at hset
    cases hset
  simp only [followOn]
  rw [promptCheck_port, hhalt]
  · split
    · exact frame_mem_evaluateMark hsignal
    · exact hsignal
  · split <;> simp

/-- R65, R112, step 3: a stop that becomes set in CUTTING is signalled HALT. -/
theorem halt_mem_followOn {seg : Segment} (hbefore : before.water.stop = false) (hstop : s.water.stop = true)
    (hcut : s.cut.state = .cutting) (hseg : s.cut.segment = some seg) (hroom : s.port.out.length < 12) :
    PortFrame.signal (.halt seg.step seg.doneBefore)
      ∈ (followOn before by_ freed override s).port.out.map (·.frame) := by
  have hhalt : ∀ t : State, t.water.stop = s.water.stop → t.cut.state = s.cut.state → t.cut.segment = s.cut.segment →
      t.port.out.length < 16 →
      .signal (.halt seg.step seg.doneBefore) ∈ (signalHalt before.water.stop t).port.out.map (·.frame) := by
    intro t hs hc hg hlen
    have hsignal : haltSignal t = .halt seg.step seg.doneBefore := by rw [haltSignal, hg, hseg]
    rw [signalHalt, if_pos ⟨hbefore, hs.trans hstop, hc.trans hcut⟩, hsignal]
    exact signal_mem_emit rfl hlen
  have hover := evaluateOverdraw_length_le s by_
  have hwater := signalWater_length_le (evaluateOverdraw by_ s) before.ownGrant
  have hmark := evaluateMark_length_le (signalWater before.ownGrant (evaluateOverdraw by_ s))
  simp only [followOn]
  rw [promptCheck_port]
  refine hhalt _ ?_ ?_ ?_ ?_
  · split <;> simp
  · split <;> simp
  · split <;> simp
  · split <;> omega

end

/-! ### A heard DRAW -/

theorem exec_draw_heard {s : State} {sender request grant : Nat} {lock : Bool}
    (h : Heard sender 1 1 (.draw request lock grant) s) :
    exec (.drawNotice sender request lock grant) s = .next (applyDraw sender request lock grant s) :=
  congrArg Host.Outcome.next (hear_of_heard h _)

/-- R109, R110: the entry of the sender in a DRAW heard from another station. -/
def heardEntry (s : State) (sender request : Nat) (lock : Bool) (grant : Nat) : DrawEntry :=
  ⟨sender, request, if lock = true then min grant request
    else min request (s.water.capacity - othersSum s.water.draws sender), lock, some 350⟩

/-- The water view with that entry in its place. -/
def drawnState (s : State) (d : DrawEntry) : State :=
  { s with water := { s.water with draws := putDraw d s.water.draws } }

section
variable {s : State} {sender request grant : Nat} {lock : Bool} (hpeer : sender ≠ s.station)
include hpeer

theorem applyDraw_peer : applyDraw sender request lock grant s
    = followOn s sender (drawFreed (findDraw s.water.draws sender) (heardEntry s sender request lock grant)) false
      (fit (drawnState s (heardEntry s sender request lock grant))) := by
  have hentry : drawnEntry s.station s.water.capacity s.water.draws sender request lock grant
      = heardEntry s sender request lock grant := by
    simp only [drawnEntry, heardEntry, if_neg hpeer, openGrant, ageTicks]
  have hdecide : decide (sender ≠ s.station) = true := decide_eq_true hpeer
  simp only [applyDraw, hentry, if_neg hpeer, hdecide, Bool.true_and]
  rfl

/-- A DRAW of another station leaves the own entry until the fit rule runs. -/
theorem drawnState_ownDraw : (drawnState s (heardEntry s sender request lock grant)).ownDraw = s.ownDraw := by
  change (findDraw (putDraw _ s.water.draws) s.station).getD _ = _
  rw [findDraw_putDraw_ne _ _ _ (Ne.symm hpeer)]
  rfl

end

theorem drawFreed_iff (b d : DrawEntry) : drawFreed (some b) d = true
    ↔ d.granted < b.granted ∧ (d.requested < b.requested ∨ (b.locked = true ∧ d.locked = false)) := by
  simp [drawFreed]

/-- R114: a DRAW that leaves the sender's grant no lower frees nothing. -/
theorem drawFreed_of_le {b : Option DrawEntry} {d : DrawEntry} (h : (b.map (·.granted)).getD 0 ≤ d.granted) :
    drawFreed b d = false := by
  cases b with
  | none => rfl
  | some b =>
    refine Bool.eq_false_iff.mpr fun hfreed => ?_
    exact absurd ((drawFreed_iff b d).mp hfreed).1 (Nat.not_lt.mpr h)

/-- R114: the line behind the follow-ons of an event that freed water while the own entry is unlocked. -/
theorem followOn_prompts {before s : State} {by_ : Nat} (hrun : s.boot.runState = .running)
    (hlock : s.ownDraw.locked = false) :
    (s.ownGrant < s.water.ownRequest → QueueOpen s → drawWaiting s.line = false →
      (followOn before by_ true false s).line = withEntry { entry (.draw s.water.ownRequest false 0) none with
        purpose := some .prompt } s.line)
    ∧ (s.ownGrant < s.water.ownRequest → s.boot.listenOnly = false → drawWaiting s.line = true →
      (followOn before by_ true false s).line = absorbDraw .prompt none s.line)
    ∧ (s.water.ownRequest ≤ s.ownGrant → (followOn before by_ true false s).line = s.line) := by
  refine ⟨fun hless ⟨hlisten, hroom⟩ hnone => ?_, fun hless hlisten hwaits => ?_, fun hle => ?_⟩
  · rw [followOn_line, promptCheck_queues ⟨hrun, hlisten, hlock, hless⟩, queueDraw_joins _ _ hlisten hnone hroom]
    rfl
  · rw [followOn_line, promptCheck_queues ⟨hrun, hlisten, hlock, hless⟩, queueDraw_absorbs _ _ hlisten hwaits]
  · rw [followOn_line, promptCheck_idle (.inr fun h => Nat.not_lt.mpr hle h.2.2.2)]

/-- Settles O56. -/
theorem drawHeard : Obligations.DrawHeard := by
  unfold Obligations.DrawHeard
  intro s sender request lock grant h before
  have hpeer := h.notOwn
  have happly := applyDraw_peer (request := request) (grant := grant) (lock := lock) hpeer
  have hown := drawnState_ownDraw (request := request) (grant := grant) (lock := lock) hpeer
  generalize hd : heardEntry s sender request lock grant = d at happly hown
  obtain ⟨hlocked, -⟩ := fit_ownDraw (drawnState s d)
  rw [hown] at hlocked
  have hwater := followOn_water s sender (drawFreed (findDraw s.water.draws sender) d) false (fit (drawnState s d))
  have hover : overdrawn (fit (drawnState s d)).water = decide (s.water.capacity < lockedSum (fit (drawnState s d)).water.draws) := rfl
  have hgranted : d.granted = if lock = true then min grant request
      else min request (s.water.capacity - othersSum s.water.draws sender) := by rw [← hd]; rfl
  have hgrant : (followOn s sender (drawFreed (findDraw s.water.draws sender) d) false (fit (drawnState s d))).ownGrant
      = (fit (drawnState s d)).ownGrant := by simp
  refine ⟨_, exec_draw_heard h, ?_⟩
  rw [happly, hgrant, ← hgranted, hwater]
  refine ⟨?_, fun hlock => ?_, hover, fun hclear hset => ?_, fun hsame hsame' => ?_, fun hchange hroom => ?_,
    fun hle => ?_, fun b hb hlower hwhy hrun hunlocked => ?_, rfl, rfl, rfl, rfl, rfl, by simp [drawnState],
    by simp [drawnState], by simp [drawnState], by simp [drawnState]⟩
  · rw [← hd]; rfl
  · have hentry : d = ⟨sender, request, min grant request, true, some 350⟩ := by
      rw [← hd, heardEntry, hlock, if_pos rfl]
    have hfind : findDraw (putDraw d s.water.draws) sender = some d := by
      have := findDraw_putDraw d s.water.draws
      rwa [show d.station = sender by rw [hentry]] at this
    rw [← hentry]
    exact findDraw_fitTable_locked _ hfind (by rw [hentry])
  · rw [followOn_boot, evaluateOverdraw, if_pos ⟨hset, hclear⟩]
    rfl
  · rw [followOn_port_same hsame rfl hsame'.symm]
    rfl
  · have hsignal := water_mem_followOn (by_ := sender) (freed := drawFreed (findDraw s.water.draws sender) d)
      (override := false) hchange (by rfl) hroom
    rwa [hlocked] at hsignal
  · rw [followOn_line, drawFreed_of_le hle, promptCheck_idle (.inl rfl)]
    rfl
  · have hfreed : drawFreed (findDraw s.water.draws sender) d = true := by
      rw [hb, drawFreed_iff, ← hd]
      exact ⟨by rw [hd]; exact hlower, hwhy⟩
    rw [hfreed]
    exact followOn_prompts hrun (hlocked.trans hunlocked)

/-! ### A heard PLANT, a WATER-OVERRIDE, and silence -/

/-- R120: the water view as a PLANT leaves it before the fit rule. -/
def plantState (s : State) (sender capacity fresh : Nat) (stop stale : Bool) : State :=
  { s with water := { s.water with
      capacity := min capacity s.cfg.maxCapacity, fresh := fresh, stop := stop, stale := stale, plantHeard := some 350
      silent := false, lastPlant := sender } }

theorem applyPlant_eq (sender capacity fresh : Nat) (stop stale : Bool) (s : State) :
    applyPlant sender capacity fresh stop stale s
      = followOn s sender (decide (s.water.capacity < min capacity s.cfg.maxCapacity)) false
        (fit (plantState s sender capacity fresh stop stale)) := rfl

theorem exec_plant_heard {s : State} {sender capacity fresh : Nat} {stop stale : Bool}
    (h : Heard sender 1 1 (.plant capacity fresh stop stale) s) :
    exec (.plantNotice sender capacity fresh stop stale) s = .next (applyPlant sender capacity fresh stop stale s) :=
  congrArg Host.Outcome.next (hear_of_heard h _)

theorem applyPlant_water (sender capacity fresh : Nat) (stop stale : Bool) (s : State) :
    (applyPlant sender capacity fresh stop stale s).water = { s.water with
      capacity := min capacity s.cfg.maxCapacity, fresh := fresh, stop := stop, stale := stale
      plantHeard := some 350, silent := false, lastPlant := sender
      draws := fitTable (min capacity s.cfg.maxCapacity) s.water.draws
      overdraw := decide (min capacity s.cfg.maxCapacity < lockedSum s.water.draws) } := by
  rw [applyPlant_eq, followOn_water, overdrawn]
  change ({ (fit (plantState s sender capacity fresh stop stale)).water with
    overdraw := decide (_ < lockedSum (fitTable (min capacity s.cfg.maxCapacity) s.water.draws)) } : Water) = _
  rw [fitTable_lockedSum]
  rfl

/-- R61: with the stop clear a suspended step waits for nothing. -/
theorem evaluateMark_suspended {s : State} (hcut : s.cut.state = .suspended) (hstop : s.water.stop = false) :
    (evaluateMark s).cut.waiting = false := by
  have hpass : markPasses s = true := by simp [markPasses, hcut, hstop]
  by_cases hw : s.cut.waiting = true
  · rw [evaluateMark, if_pos ⟨hw, hpass⟩]
    rfl
  · rw [evaluateMark, if_neg fun h => hw h.1]
    simpa using hw

/-- R125: a WATER-OVERRIDE clears the stop, and the mark is evaluated. -/
def overrideState (s : State) : State := { s with water := { s.water with stop := false } }

theorem plantSilent_state (s : State) : plantSilent s = raise .plantSilent s.water.lastPlant
    (let s2 := followOn s s.station (decide (s.water.capacity < s.cfg.fallback)) false
      (fit { s with water := { s.water with capacity := s.cfg.fallback, plantHeard := none } })
     { s2 with water := { s2.water with silent := true } }) := rfl

/-- R122: the water view of a station that takes the plant to be silent. -/
theorem plantSilent_water (s : State) : (plantSilent s).water = { s.water with
    capacity := s.cfg.fallback, plantHeard := none, silent := true
    draws := fitTable s.cfg.fallback s.water.draws
    overdraw := decide (s.cfg.fallback < lockedSum s.water.draws) } := by
  rw [plantSilent_state]
  change ({ (followOn s s.station (decide (s.water.capacity < s.cfg.fallback)) false
      (fit { s with water := { s.water with capacity := s.cfg.fallback, plantHeard := none } })).water with
    silent := true } : Water) = _
  rw [followOn_water]
  change ({ (fit { s with water := { s.water with capacity := s.cfg.fallback, plantHeard := none } }).water with
    silent := true
    overdraw := decide (_ < lockedSum (fitTable s.cfg.fallback s.water.draws)) } : Water) = _
  rw [fitTable_lockedSum]
  rfl

/-- Settles O57. -/
theorem plantHeard : Obligations.PlantHeard := by
  unfold Obligations.PlantHeard
  intro s
  refine ⟨fun sender capacity fresh stop stale h => ⟨_, exec_plant_heard h, applyPlant_water .., ?_⟩, fun sender h => ?_,
    fun n hin hheard => ?_⟩
  · rw [applyPlant_eq]
    obtain ⟨hlocked, hgrant⟩ := fit_ownDraw (plantState s sender capacity fresh stop stale)
    refine ⟨fun seg hclear hset hcut hseg hroom => ?_, fun hrun hunlocked hopen hnone hmore hless => ?_, fun hle => ?_,
      by rw [followOn_cut]; rfl, by simp [plantState], by simp [plantState], by simp [plantState], by simp [plantState]⟩
    · exact halt_mem_followOn hclear hset hcut hseg hroom
    · rw [decide_eq_true hmore]
      obtain ⟨hqueued, -⟩ := followOn_prompts (before := s) (by_ := sender)
        (s := fit (plantState s sender capacity fresh stop stale)) hrun (hlocked.trans hunlocked)
      exact hqueued (Nat.lt_of_le_of_lt hgrant hless) hopen hnone
    · rw [decide_eq_false (Nat.not_lt.mpr hle), followOn_line, promptCheck_idle (.inl rfl)]
      rfl
  · refine ⟨followOn s s.station false true (overrideState s), congrArg Host.Outcome.next (hear_of_heard h _), ?_, fun hcut => ?_,
      by rw [followOn_cut]; rfl, ?_, by simp [overrideState], by simp [overrideState], by simp [overrideState],
      by simp [overrideState]⟩
    · rw [followOn_water]
      rfl
    · rw [followOn_waiting (.inr (.inr rfl))]
      exact evaluateMark_suspended (by simpa [overrideState] using hcut) (by simp [overrideState])
    · rw [followOn_line, promptCheck_idle (.inl rfl)]
      rfl
  · refine ⟨plantSilent s, congrArg Host.Outcome.next (if_pos ?_), plantSilent_water s, ?_, ?_, by simp⟩
    · rw [runs, hin, hheard]
      rfl
    · rw [plantSilent_state, (raise_faults ..).1]
      rfl
    · rw [plantSilent_state, (raise_faults ..).2]
      simp

end Sys2Proof.Machine
end
section
/-! PROOF. Heard stock notices by their preconditions (R6, R7, R12 to R25), and without one (R2, R5, R6, R8, R28). -/

namespace Sys2Proof.Machine

/-! ### Notices whose precondition holds -/

/-- The event of a notice with a precondition is the stock unit's alone. -/
theorem exec_stockEvent {k : StockKind} {sender pre : Nat} {r : SlabRecord} {s : State}
    (h : Heard sender 1 1 (stockNotice k pre r) s) (hcut : k = .splitParent → r.state = .cut) :
    exec (stockEvent k sender pre r) s = .next (applyChecked k sender pre r none s) := by
  cases k with
  | splitParent => exact congrArg Host.Outcome.next ((hear_of_heard h _).trans (if_pos (hcut rfl)))
  | claim => exact congrArg Host.Outcome.next (hear_of_heard h _)
  | lapse => exact congrArg Host.Outcome.next (hear_of_heard h _)
  | free why => exact congrArg Host.Outcome.next (hear_of_heard h _)
  | load => exact congrArg Host.Outcome.next (hear_of_heard h _)
  | scrap => exact congrArg Host.Outcome.next (hear_of_heard h _)

theorem exec_splitParent_heard {sender index count pre : Nat} {r : SlabRecord} {s : State}
    (h : Heard sender index count (.split pre [r]) s) (hcut : r.state = .cut) :
    exec (.splitNotice sender index count pre [r]) s = .next (applyChecked .splitParent sender pre r none s) :=
  congrArg Host.Outcome.next ((hear_of_heard h _).trans (if_pos hcut))

theorem heldBy_eq_false {n : Nat} {r : SlabRecord} (h : r.holder ≠ some n) : heldBy n r = false :=
  Bool.eq_false_iff.mpr fun hheld => h ((heldBy_iff n r).mp hheld).2

theorem heldBy_claimed {n : Nat} {r : SlabRecord} (hstate : r.state = .claimed) (h : r.holder = some n) :
    heldBy n r = true :=
  (heldBy_iff n r).mpr ⟨.inl hstate, h⟩

section
variable {k : StockKind} {sender pre : Nat} {r v : SlabRecord} {s : State} (hv : s.slab r.id = some v)
    (hpre : v.version = pre) (hkind : precondition k sender r v = true)
include hv hpre hkind

/-- A notice of another station that ends no hold of this one changes the entry alone. -/
theorem applyChecked_written (heffects : stockEffects k sender r v none (writeSlab r s) = writeSlab r s) :
    applyChecked k sender pre r none s = writeSlab r s :=
  (applyChecked_holds k sender pre r v none s hv hpre hkind).trans heffects

theorem applyChecked_ended {sg : Signal}
    (heffects : stockEffects k sender r v none (writeSlab r s) = claimEnded sg (writeSlab r s)) :
    applyChecked k sender pre r none s = claimEnded sg (writeSlab r s) :=
  (applyChecked_holds k sender pre r v none s hv hpre hkind).trans heffects

end

section
variable {sender : Nat} {r v : SlabRecord} {s : State} (hpeer : sender ≠ s.station)
include hpeer

/-- R13: what another station's CLAIM does beyond the entry. -/
theorem claim_effects : stockEffects .claim sender r v none s
    = if heldBy s.station v = true then claimEnded (.preempted r.id) s else s := by
  simp only [stockEffects, decide_eq_false hpeer, Bool.false_eq_true, if_false]

/-- R15, R17, R18, R20, R21: the notices that act at their sender alone. -/
theorem peer_effects {k : StockKind} (hk : k = .lapse ∨ k = .free .released ∨ k = .free .unloaded ∨ k = .load
    ∨ k = .splitParent) : stockEffects k sender r v none s = s := by
  obtain rfl | rfl | rfl | rfl | rfl := hk <;>
  simp only [stockEffects, decide_eq_false hpeer, Bool.false_eq_true, if_false]

end

/-- Settles O52. -/
theorem stockNoticesHeard : Obligations.StockNoticesHeard := by
  unfold Obligations.StockNoticesHeard
  intro s sender pre r v hv hpre watch stock written ended
  have hstation : (writeSlab r s).station = s.station := by simp
  have hwritten : ∀ {k : StockKind} {i : Instr}, exec i s = .next (applyChecked k sender pre r none s) →
      precondition k sender r v = true → stockEffects k sender r v none (writeSlab r s) = writeSlab r s →
      written i := fun hexec hkind heffects =>
    hexec.trans (congrArg Host.Outcome.next (applyChecked_written hv hpre hkind heffects))
  have hended : ∀ {k : StockKind} {i : Instr} {sg : Signal}, exec i s = .next (applyChecked k sender pre r none s) →
      precondition k sender r v = true →
      stockEffects k sender r v none (writeSlab r s) = claimEnded sg (writeSlab r s) → ended i sg :=
    fun hexec hkind heffects =>
      hexec.trans (congrArg Host.Outcome.next (applyChecked_ended hv hpre hkind heffects))
  have hpeer : ∀ {index count : Nat} {n : Notice}, Heard sender index count n s → sender ≠ (writeSlab r s).station :=
    fun h => hstation.symm ▸ h.notOwn
  refine ⟨fun h hfree => ?_, fun h hclaimed hother hless => ⟨fun hnot => ?_, fun hmine => ?_⟩,
    fun hclaimed hholder => ⟨fun h => ?_, fun h => ?_, fun h => ?_⟩,
    fun hloaded hholder => ⟨fun h => ?_, fun index count h hcut => ?_⟩,
    fun hclaimed h => ⟨fun hnot => ?_, fun hmine => ?_⟩, fun hclaimed h => ⟨fun hnot => ?_, fun hmine => ?_⟩,
    fun hfree h => ?_⟩
  · refine hwritten (exec_stockEvent (k := .claim) h nofun) (by simp [precondition, hfree]) ?_
    rw [claim_effects (hpeer h), if_neg (by simp [heldBy, showsHeld, hfree])]
  · refine hwritten (exec_stockEvent (k := .claim) h nofun) (by simp [precondition, hclaimed, hother, hless]) ?_
    rw [claim_effects (hpeer h), hstation, if_neg (by simp [heldBy_eq_false hnot])]
  · refine hended (exec_stockEvent (k := .claim) h nofun) (by simp [precondition, hclaimed, hother, hless]) ?_
    rw [claim_effects (hpeer h), hstation, if_pos (heldBy_claimed hclaimed hmine)]
  · exact hwritten (exec_stockEvent (k := .lapse) h nofun) (by simp [precondition, hclaimed, hholder])
      (peer_effects (hpeer h) (by simp))
  · exact hwritten (exec_stockEvent (k := .free .released) h nofun) (by simp [precondition, hclaimed, hholder])
      (peer_effects (hpeer h) (by simp))
  · exact hwritten (exec_stockEvent (k := .load) h nofun) (by simp [precondition, hclaimed, hholder])
      (peer_effects (hpeer h) (by simp))
  · exact hwritten (exec_stockEvent (k := .free .unloaded) h nofun) (by simp [precondition, hloaded, hholder])
      (peer_effects (hpeer h) (by simp))
  · exact hwritten (exec_splitParent_heard h hcut) (by simp [precondition, hloaded, hholder])
      (peer_effects (hpeer h) (by simp))
  · refine hwritten (exec_stockEvent (k := .free .orphan) h nofun) (by simp [precondition, hclaimed]) ?_
    simp only [stockEffects, hstation, heldBy_eq_false hnot, Bool.false_eq_true, if_false]
  · refine hended (exec_stockEvent (k := .free .orphan) h nofun) (by simp [precondition, hclaimed]) ?_
    simp only [stockEffects, hstation, heldBy_claimed hclaimed hmine, if_true]
  · refine hwritten (exec_stockEvent (k := .free .forced) h nofun) (by simp [precondition, hclaimed]) ?_
    simp only [stockEffects, hstation, heldBy_eq_false hnot, Bool.false_eq_true, if_false, answer]
  · refine hended (exec_stockEvent (k := .free .forced) h nofun) (by simp [precondition, hclaimed]) ?_
    simp only [stockEffects, hstation, heldBy_claimed hclaimed hmine, if_true, answer]
  · exact hwritten (exec_stockEvent (k := .scrap) h nofun) (by simp [precondition, hfree]) rfl

/-! ### Records without a precondition that holds -/

/-- R6: a record whose notice asks nothing of the view, or asks what the view does not answer. -/
theorem applyChecked_plain {k : StockKind} {sender pre : Nat} {r : SlabRecord} {s : State}
    (h : ∀ v, s.slab r.id = some v →
      v.version ≠ pre ∨ (precondition k sender r v = false ∧ newer r.version v.version = true)) :
    applyChecked k sender pre r none s = applyPlain r s := by
  simp only [applyChecked, applyPlain, answer]
  cases hv : s.slab r.id with
  | none => rfl
  | some v =>
    dsimp only
    obtain hne | ⟨hfails, hnewer⟩ := h v hv
    · rw [if_neg (Ne.symm hne)]
    · rw [if_pos hnewer, if_neg (ne_true_of_eq_false hfails), ite_self]

theorem applyYardIn_heard (r : SlabRecord) (s : State) : applyYardIn r none s = applyPlain r s := by
  simp only [applyYardIn, answer]
  split <;> rfl

theorem adopt_known {r a v : SlabRecord} {s : State} (ha : adoptable s r = a) (hstays : endsHold s a = false)
    (hv : s.slab r.id = some v) : adopt r s = writeSlab a s := by
  simp only [adopt, ha, hv, hstays, Bool.false_eq_true, if_false]

theorem adopt_unknown {r a : SlabRecord} {s : State} (ha : adoptable s r = a) (hstays : endsHold s a = false)
    (hv : s.slab r.id = none) : adopt r s = recordNew a s := by
  simp only [adopt, ha, hv, hstays, Bool.false_eq_true, if_false]

section
variable (a : SlabRecord) {s : State}

theorem recordNew_room (hroom : s.stock.table.length < 200) : recordNew a s
    = { s with stock := { s.stock with table := s.stock.table ++ [⟨a, watchFor s a⟩] } } := by
  rw [recordNew, recordIn, if_pos (show _ < stockMax from hroom)]

theorem recordNew_evicts (hfull : 200 ≤ s.stock.table.length)
    (hfinal : s.stock.table.any (fun x => isHistory x.slab) = true) : recordNew a s
    = { s with stock := { s.stock with
        table := s.stock.table.eraseP (fun x => isHistory x.slab) ++ [⟨a, watchFor s a⟩] } } := by
  rw [recordNew, recordIn, if_neg (show ¬ _ < stockMax from Nat.not_lt.mpr hfull), if_pos hfinal]

theorem recordNew_full (hfull : 200 ≤ s.stock.table.length)
    (hfinal : s.stock.table.any (fun x => isHistory x.slab) = false) : recordNew a s
    = raise .stockFull a.id.seq s := by
  rw [recordNew, recordIn, if_neg (show ¬ _ < stockMax from Nat.not_lt.mpr hfull), if_neg (ne_true_of_eq_false hfinal)]

end

theorem cutHolds_iff (s : State) (id : SlabId) : s.cutHolds id = true ↔ s.cut.state ≠ .empty ∧ s.cut.held = some id := by
  simp [State.cutHolds]

theorem newer_iff (a b : Nat) : newer a b = true
    ↔ 1 ≤ (a + (65536 - b % 65536)) % 65536 ∧ (a + (65536 - b % 65536)) % 65536 ≤ 32767 := by
  simp [newer]

/-- R8: the hold ends: its window stops, the cut state is emptied and PREEMPTED is signalled. -/
theorem endHold_state (id : SlabId) (s : State) :
    (endHold id s).stock = { s.stock with window := none, heldExpiry := false }
    ∧ (endHold id s).cut = { s.cut with state := .empty, held := none, segment := none, waiting := false }
    ∧ (endHold id s).plan = { staging := none, plan := none } ∧ (endHold id s).port = (emit (.preempted id) s).port := by
  simp only [endHold]
  split <;> exact ⟨rfl, rfl, rfl, rfl⟩

/-- Settles O53. -/
theorem catchUp : Obligations.CatchUp := by
  unfold Obligations.CatchUp
  intro s sender index count pre r i hi holds shown freed taken final later replaced
  have hexec : exec i s = .next (applyPlain r s) := by
    obtain ⟨rfl, h⟩ | ⟨rfl, h⟩ | ⟨rfl, hchild, h⟩ | ⟨k, rfl, h, hparent, hview⟩ := hi
    · exact congrArg Host.Outcome.next ((hear_of_heard h _).trans (applyYardIn_heard r s))
    · exact congrArg Host.Outcome.next (hear_of_heard h _)
    · exact congrArg Host.Outcome.next ((hear_of_heard h _).trans (if_neg hchild))
    · rw [exec_stockEvent h hparent, applyChecked_plain hview]
  have hknown : ∀ v, s.slab r.id = some v → later v → applyPlain r s = adopt r s := fun v hv hlater => by
    rw [applyPlain, hv]
    exact if_pos ((newer_iff _ _).mpr hlater)
  have hunknown : s.slab r.id = none → applyPlain r s = adopt r s := fun hv => by rw [applyPlain, hv]
  have hshown : shown ↔ heldBy s.station r = true := (heldBy_iff s.station r).symm
  have hholds : holds ↔ s.cutHolds r.id = true := (cutHolds_iff s r.id).symm
  refine ⟨fun v hv hnot => ?_, fun a ha hstays => ?_, fun v hv hlater hnot hheld hsplitting => ?_⟩
  · rw [hexec, applyPlain, hv]
    exact congrArg Host.Outcome.next (if_neg fun h => hnot ((newer_iff _ _).mp h))
  · have hid : a.id = r.id := by
      obtain ⟨-, -, rfl⟩ | ⟨-, -, rfl⟩ | ⟨-, rfl⟩ := ha <;> rfl
    have hadopt : adoptable s r = a := by
      obtain ⟨hs, hh, rfl⟩ | ⟨-, hh, rfl⟩ | ⟨hs, rfl⟩ := ha
      · exact if_pos ⟨hshown.mp hs, Bool.eq_false_iff.mpr fun h => hh (hholds.mpr h)⟩
      · exact if_neg fun h => by rw [hholds.mp hh] at h; cases h.2
      · exact if_neg fun h => hs (hshown.mpr h.1)
    have hend : endsHold s a = false := by
      refine Bool.eq_false_iff.mpr fun h => ?_
      simp only [endsHold, Bool.and_eq_true, decide_eq_true_eq, Bool.not_eq_true', hid] at h
      obtain ⟨⟨hheld, hnot⟩, hdenied⟩ := h
      obtain ⟨-, hh, -⟩ | ⟨hs, -, rfl⟩ | ⟨hs, rfl⟩ := ha
      · exact hh (hholds.mpr hheld)
      · rw [hshown.mp hs] at hdenied
        cases hdenied
      · obtain h | h | h := hstays
        · exact hs h
        · exact h (hholds.mpr hheld)
        · exact hnot h
    rw [hexec]
    refine ⟨fun v hv hlater => ?_, fun hv hroom => ?_, fun hv hfull hfinal => ?_, fun hv hfull hfinal => ?_⟩
    · rw [hknown v hv hlater, adopt_known hadopt hend hv, writeSlab, setSlab]
      dsimp only
      rw [hid]
      rfl
    · rw [hunknown hv, adopt_unknown hadopt hend hv, recordNew_room a hroom]
      rfl
    · rw [hunknown hv, adopt_unknown hadopt hend hv, recordNew_evicts a hfull hfinal]
      rfl
    · rw [hunknown hv, adopt_unknown hadopt hend hv, recordNew_full a hfull hfinal, hid]
  · have hadopt : adoptable s r = r := if_neg fun h => hnot (hshown.mpr h.1)
    have hend : endsHold s r = true := by
      have hfalse : heldBy s.station r = false := Bool.eq_false_iff.mpr fun h => hnot (hshown.mpr h)
      simp [endsHold, hholds.mp hheld, hsplitting, hfalse]
    have hended : adopt r s = endHold r.id (writeSlab r s) := by
      simp only [adopt, hadopt, hv, hend, if_true]
    obtain ⟨hstock, hcut, hplan, hport⟩ := endHold_state r.id (writeSlab r s)
    refine ⟨endHold r.id (writeSlab r s), ?_, hstock, hcut, hplan, hport, by simp, by simp, ?_, fun hmid hlisten => ?_,
      fun hc hs => ?_⟩
    · rw [hexec, hknown v hv hlater, hended]
    · rw [endHold]
      split <;> rfl
    · have hmid' : midStep (writeSlab r s).cut.state = true := by simpa [midStep] using hmid
      rw [endHold, if_pos hmid']
      exact drawWaiting_queueDraw (by decide) _ hlisten
    · have hmid' : ¬ midStep (writeSlab r s).cut.state = true := by simp [midStep, hc, hs]
      rw [endHold, if_neg hmid']
      rfl

end Sys2Proof.Machine
end
section
/-! PROOF. Fragments of slab records (R171), a heard RESTART and a heard STOCK-ASK (R26, R27, R118). -/

namespace Sys2Proof.Machine

/-! ### Fragments -/

/-- R171: a fragment holds a record, and two or more fit into the payload. -/
def FragmentFits (rs : List SlabRecord) : Prop := rs ≠ [] ∧ (rs.length = 1 ∨ (rs.map slabSize).sum ≤ fragmentRoom)

theorem packFrom_flatten (rs acc : List SlabRecord) (used : Nat) :
    (packFrom acc used rs).flatten = acc.reverse ++ rs := by
  induction rs generalizing acc used with
  | nil =>
    rw [packFrom]
    split
    · next h => simp [h]
    · simp
  | cons r rs ih =>
    rw [packFrom]
    split
    · rw [List.flatten_cons, ih]
      rfl
    · rw [ih]
      simp

theorem packFrom_fits (rs acc : List SlabRecord) (used : Nat) (hused : used = (acc.map slabSize).sum)
    (hacc : acc.length ≤ 1 ∨ used ≤ fragmentRoom) : ∀ part ∈ packFrom acc used rs, FragmentFits part := by
  have hdone : acc ≠ [] → FragmentFits acc.reverse := by
    intro hne
    refine ⟨by simpa using hne, ?_⟩
    obtain h | h := hacc
    · have := List.length_pos_iff.mpr hne
      exact .inl (by rw [List.length_reverse]; omega)
    · refine .inr ?_
      rw [List.map_reverse, List.sum_reverse, ← hused]
      exact h
  induction rs generalizing acc used with
  | nil =>
    rw [packFrom]
    split
    · exact fun part h => nomatch h
    · next hne => exact fun part h => List.mem_singleton.mp h ▸ hdone hne
  | cons r rs ih =>
    have hbegin : ∀ (acc' : List SlabRecord) (used' : Nat), used' = (acc'.map slabSize).sum →
        (acc'.length ≤ 1 ∨ used' ≤ fragmentRoom) → ∀ part ∈ packFrom acc' used' rs, FragmentFits part := by
      intro acc' used' hu ha
      refine ih acc' used' hu ha fun hne => ⟨by simpa using hne, ?_⟩
      obtain h | h := ha
      · have := List.length_pos_iff.mpr hne
        exact .inl (by rw [List.length_reverse]; omega)
      · exact .inr (by rw [List.map_reverse, List.sum_reverse, ← hu]; exact h)
    rw [packFrom]
    split
    · next h =>
      intro part hpart
      obtain rfl | hpart := List.mem_cons.mp hpart
      · exact hdone h.1
      · exact hbegin [r] _ (by simp) (.inl (Nat.le_refl _)) part hpart
    · next h =>
      refine hbegin (r :: acc) _ (by simp [hused, Nat.add_comm]) ?_
      by_cases hne : acc = []
      · exact .inl (by simp [hne])
      · exact .inr (Nat.le_of_not_lt fun hlt => h ⟨hne, hlt⟩)

theorem pack_flatten (rs : List SlabRecord) : (pack rs).flatten = rs := packFrom_flatten rs [] 0

theorem pack_fits (rs : List SlabRecord) : ∀ part ∈ pack rs, FragmentFits part :=
  packFrom_fits rs [] 0 rfl (.inl (Nat.zero_le _))

section
variable (build : Bool → List SlabRecord → Notice) (batch : Nat) (frags : List (List SlabRecord))

theorem fragmentEntries_notices : (fragmentEntries build batch frags).map (·.notice)
    = frags.zipIdx.map fun f => build (decide (f.2 < 8)) f.1 := by
  rw [fragmentEntries, List.map_map]
  rfl

theorem fragmentEntries_numbers : ∀ e ∈ fragmentEntries build batch frags,
    1 ≤ e.index ∧ e.index ≤ e.count ∧ e.count ≤ 8 := by
  intro e he
  obtain ⟨⟨part, i⟩, hi, rfl⟩ := List.mem_map.mp he
  have hlt : i < frags.length := by simpa using (List.mem_zipIdx hi).2.1
  change 1 ≤ i % 8 + 1 ∧ i % 8 + 1 ≤ min 8 (frags.length - 8 * (i / 8)) ∧ min 8 (frags.length - 8 * (i / 8)) ≤ 8
  omega

end

theorem map_zipIdx_fst {α β : Type} (f : α → β) (l : List α) : l.zipIdx.map (fun p => f p.1) = l.map f := by
  rw [show (fun p : α × Nat => f p.1) = f ∘ Prod.fst from rfl, ← List.map_map, List.zipIdx_map_fst]

/-! ### The queue behind new notices -/

/-- R164, R165: with nothing waiting the new notices stand behind the queue, in their order. -/
theorem allEntries_putNotices (cause : WaitCause) (es : List QEntry) {l : Line} (h : l.waiters = []) :
    allEntries (putNotices cause es l) = l.queue ++ es := by
  simp only [allEntries, putNotices, h]
  split
  · next hnone => simp [List.take_of_length_le (List.drop_eq_nil_iff.mp hnone)]
  · simp [addWaiter, List.append_assoc]

/-! ### RESTART and STOCK-ASK -/

theorem restartEntry_eq (sender : Nat) (e : StockEntry) : restartEntry sender e
    = if (e.slab.state = .claimed ∨ e.slab.state = .loaded) ∧ e.slab.holder = some sender then
        ⟨{ e.slab with
          state := .free, holder := none, job := none, priority := none
          version := versionSucc e.slab.version }, none⟩
      else e := by
  rw [restartEntry]
  by_cases h : heldBy sender e.slab = true
  · rw [if_pos h, if_pos ((heldBy_iff _ _).mp h)]
    rfl
  · rw [if_neg h, if_neg fun hheld => h ((heldBy_iff _ _).mpr hheld)]

theorem isHistory_eq (r : SlabRecord) : (!isHistory r) = decide (r.state ≠ .cut ∧ r.state ≠ .scrapped) := by
  simp [isHistory]

theorem slabSize_le {r : SlabRecord} (h : r.defects.length ≤ 4) : slabSize r ≤ 62 := by
  unfold slabSize
  omega

theorem answerStands_of_waiting {s : State} {e : QEntry} {rs : List SlabRecord} (he : e ∈ allEntries s.line)
    (hn : e.notice = .stockState rs) (hb : e.batch = s.stock.answerBatch) (ht : s.stock.answerTouched = false) :
    answerStands s = true := by
  have hanswer : isAnswer s.stock.answerBatch e = true := by simp [isAnswer, hn, hb]
  simpa [answerStands, ht] using ⟨e, he, hanswer⟩

theorem answerStands_eq_false {s : State} (hw : s.line.waiters = [])
    (h : s.stock.answerTouched = true ∨ ∀ e ∈ s.line.queue, ∀ rs, e.notice ≠ .stockState rs) :
    answerStands s = false := by
  obtain h | h := h
  · simp [answerStands, h]
  · have hnone : (allEntries s.line).any (isAnswer s.stock.answerBatch) = false := by
      simp only [allEntries, hw, List.flatMap_nil, List.append_nil, List.any_eq_false, Bool.not_eq_true]
      intro e he
      unfold isAnswer
      split
      · next rs hn => exact absurd hn (h e he rs)
      · rfl
    simp [answerStands, hnone]

theorem applyStockAsk_idle {sender : Nat} {s : State}
    (h : s.role ≠ .console ∨ s.boot.listenOnly = true ∨ answerStands s = true) : applyStockAsk sender s = s := by
  refine if_pos ?_
  obtain h | h | h := h
  · exact .inl h
  · exact .inr (.inr (.inl h))
  · exact .inr (.inr (.inr h))

/-- R27: the entries a console answers with. -/
def answerEntries (s : State) : List QEntry :=
  fragmentEntries (fun _ rs => .stockState rs) (s.stock.answerBatch + 1) (pack (liveRecords s))

theorem applyStockAsk_answers {sender : Nat} {s : State} (hrole : s.role = .console) (hpeer : sender ≠ s.station)
    (hlisten : s.boot.listenOnly = false) (hstands : answerStands s = false) : applyStockAsk sender s
      = { s with
          stock := { s.stock with answerBatch := s.stock.answerBatch + 1, answerTouched := false }
          line := putNotices .stockState (answerEntries s) s.line } := by
  rw [applyStockAsk, if_neg (by simp [hrole, hpeer, hlisten, hstands])]
  simp only [queueNotices, hlisten, Bool.false_eq_true, if_false]
  rfl

theorem mem_liveRecords {s : State} {r : SlabRecord} (h : r ∈ liveRecords s) : ∃ e ∈ s.stock.table, e.slab = r :=
  List.mem_map.mp (List.mem_filter.mp h).1

theorem pack_live_fits {s : State} (h : ∀ e ∈ s.stock.table, e.slab.defects.length ≤ 4) :
    ∀ rs ∈ pack (liveRecords s), rs ≠ [] ∧ 4 + (rs.map slabSize).sum ≤ 128 := by
  intro rs hrs
  obtain ⟨hne, hone | hsum⟩ := pack_fits _ rs hrs
  · obtain ⟨r, rfl⟩ := List.length_eq_one_iff.mp hone
    have hmem : r ∈ (pack (liveRecords s)).flatten := List.mem_flatten.mpr ⟨[r], hrs, List.mem_singleton_self r⟩
    rw [pack_flatten] at hmem
    obtain ⟨e, he, rfl⟩ := mem_liveRecords hmem
    have := slabSize_le (h e he)
    refine ⟨hne, ?_⟩
    simp only [List.map_cons, List.map_nil, List.sum_cons, List.sum_nil]
    omega
  · have : fragmentRoom = 124 := rfl
    exact ⟨hne, by omega⟩

/-- Settles O55. -/
theorem restartAndStockAsk : Obligations.RestartAndStockAsk := by
  unfold Obligations.RestartAndStockAsk
  intro s sender
  refine ⟨fun h => ?_, fun h => ?_⟩
  · have hrestart : restartStock sender s
        = { s with stock := { s.stock with table := s.stock.table.map (restartEntry sender) } } := if_neg h.notOwn
    refine ⟨applyRestart sender s, congrArg Host.Outcome.next (hear_of_heard h _), ?_⟩
    rw [applyRestart, hrestart, removeDraw_peer (by exact h.notOwn)]
    refine ⟨?_, rfl, rfl, by simp, by simp, by simp, by simp, by simp⟩
    rw [funext (restartEntry_eq sender)]
    simp
  · have hexec : exec (.stockAskNotice sender) s = .next (applyStockAsk sender s) :=
      congrArg Host.Outcome.next (hear_of_heard h _)
    rw [hexec]
    refine ⟨fun hidle => ?_, fun e he rs hn hb ht => ?_, fun hrole hlisten hw hfresh hdefects => ?_⟩
    · exact congrArg Host.Outcome.next (applyStockAsk_idle (hidle.imp_right .inl))
    · exact congrArg Host.Outcome.next (applyStockAsk_idle (.inr (.inr (answerStands_of_waiting he hn hb ht))))
    · rw [applyStockAsk_answers hrole h.notOwn hlisten (answerStands_eq_false hw hfresh)]
      refine ⟨_, answerEntries s, pack (liveRecords s), rfl, allEntries_putNotices _ _ hw, ?_, ?_, pack_live_fits hdefects,
        fragmentEntries_numbers _ _ _, rfl, rfl, rfl, rfl⟩
      · rw [answerEntries, fragmentEntries_notices]
        exact map_zipIdx_fst Notice.stockState _
      · rw [pack_flatten, liveRecords]
        exact congrArg (List.filter · _) (funext isHistory_eq)

end Sys2Proof.Machine
end
section
/-! PROOF. Frames that fail, frames in progress on joining, and a duplicate station number (R159, R162, R172, R173, R176),
with the SPLIT fragments a station that falls silent writes into its own view (R70). -/

namespace Sys2Proof.Machine

/-! ### What the records of an own SPLIT leave -/

/-- What a carried record that no command waits for leaves of the station. -/
structure RecordLeaves (s t : State) : Prop where
  /-- no expiry becomes held -/
  expiry : s.stock.heldExpiry = false → t.stock.heldExpiry = false
  /-- in listen-only nothing is queued -/
  line : s.boot.listenOnly = true → t.line = s.line
  outstanding : t.port.outstanding = s.port.outstanding
  listenOnly : t.boot.listenOnly = s.boot.listenOnly
  /-- no reply is lost -/
  replies : ∀ q : Reply, PortFrame.reply q ∈ s.port.out.map (·.frame) → PortFrame.reply q ∈ t.port.out.map (·.frame)
  /-- no fault is cleared -/
  faults : ∀ k, flagOf s.boot.faults k = true → flagOf t.boot.faults k = true
  /-- a split under way stays so -/
  splitting : s.cut.state = .splitting → t.cut = s.cut

theorem RecordLeaves.refl {s : State} : RecordLeaves s s := ⟨id, fun _ => rfl, rfl, rfl, fun _ h => h, fun _ h => h, fun _ => rfl⟩

theorem RecordLeaves.trans {s t u : State} (h : RecordLeaves s t) (g : RecordLeaves t u) : RecordLeaves s u where
  expiry hs := g.expiry (h.expiry hs)
  line hs := (g.line (h.listenOnly.trans hs)).trans (h.line hs)
  outstanding := g.outstanding.trans h.outstanding
  listenOnly := g.listenOnly.trans h.listenOnly
  replies q hq := g.replies q (h.replies q hq)
  faults k hk := g.faults k (h.faults k hk)
  splitting hs := (g.splitting ((congrArg CutUnit.state (h.splitting hs)).trans hs)).trans (h.splitting hs)

/-- A change of table and plan alone. -/
theorem RecordLeaves.of_views {s t : State} (hexpiry : t.stock.heldExpiry = s.stock.heldExpiry) (hline : t.line = s.line)
    (hport : t.port = s.port) (hboot : t.boot = s.boot) (hcut : t.cut = s.cut) : RecordLeaves s t where
  expiry hs := hexpiry.trans hs
  line _ := hline
  outstanding := by rw [hport]
  listenOnly := by rw [hboot]
  replies _ hq := by rw [hport]; exact hq
  faults _ hk := by rw [hboot]; exact hk
  splitting _ := hcut

theorem reply_mem_raise {q : Reply} (k : FaultKind) (d : Nat) {s : State}
    (h : PortFrame.reply q ∈ s.port.out.map (·.frame)) : PortFrame.reply q ∈ (raise k d s).port.out.map (·.frame) := by
  simp only [raise]
  split
  · exact h
  · exact reply_mem_emit (.fault k d s.boot.shopTime) h

theorem raise_leaves (k : FaultKind) (d : Nat) (s : State) : RecordLeaves s (raise k d s) where
  expiry hs := by simpa using hs
  line _ := by simp
  outstanding := by simp
  listenOnly := by simp
  replies _ hq := reply_mem_raise k d hq
  faults k' hk := by
    rw [(raise_faults k d s).1, flagOf_setFlag]
    split
    · rfl
    · exact hk
  splitting _ := by simp

theorem recordNew_leaves (r : SlabRecord) (s : State) : RecordLeaves s (recordNew r s) := by
  unfold recordNew
  split
  · exact .of_views rfl rfl rfl rfl rfl
  · exact raise_leaves ..

/-- R8: the end of a hold, at a cut state short of SPLITTING. -/
theorem endHold_leaves {id : SlabId} {s : State} (h : s.cut.state ≠ .splitting) : RecordLeaves s (endHold id s) := by
  obtain ⟨hstock, -, -, hport⟩ := endHold_state id s
  refine ⟨fun _ => by rw [hstock], fun hs => ?_, by simp, by simp, fun q hq => ?_, fun k hk => ?_, fun hs => absurd hs h⟩
  · simp only [endHold]
    split
    · rw [queueDraw, if_pos (by exact hs)]
      rfl
    · rfl
  · rw [hport]
    exact reply_mem_emit (.preempted id) hq
  · have hboot : (endHold id s).boot = s.boot := by
      simp only [endHold]
      split <;> rfl
    rwa [hboot]

theorem adopt_leaves (r : SlabRecord) (s : State) : RecordLeaves s (adopt r s) := by
  have hrecord : ∀ t : State, RecordLeaves s t → t.cut.state = s.cut.state → RecordLeaves s
      (if endsHold s (adoptable s r) = true then endHold r.id t else t) := by
    intro t ht hcut
    split
    · next hends =>
      simp only [endsHold, Bool.and_eq_true, decide_eq_true_eq] at hends
      exact ht.trans (endHold_leaves (hcut ▸ hends.1.2))
    · exact ht
  refine hrecord _ ?_ ?_
  · split
    · exact .of_views rfl rfl rfl rfl rfl
    · exact recordNew_leaves ..
  · split <;> simp

theorem applyPlain_leaves (r : SlabRecord) (s : State) : RecordLeaves s (applyPlain r s) := by
  unfold applyPlain
  split
  · exact adopt_leaves ..
  · split
    · exact adopt_leaves ..
    · exact .refl

theorem applySplitRecord_leaves (sender pre : Nat) (r : SlabRecord) (s : State) :
    RecordLeaves s (applySplitRecord sender pre s r) := by
  unfold applySplitRecord
  split
  · simp only [applyChecked, answer]
    split
    · exact adopt_leaves ..
    · split
      · split
        · simp only [stockEffects]
          split <;> exact .of_views rfl rfl rfl rfl rfl
        · exact adopt_leaves ..
      · split
        · exact adopt_leaves ..
        · exact .refl
  · exact applyPlain_leaves ..

theorem applySplit_leaves (sender pre : Nat) (rs : List SlabRecord) (s : State) :
    RecordLeaves s (applySplit sender pre rs s) := by
  unfold applySplit
  induction rs generalizing s with
  | nil => exact .refl
  | cons r rs ih => exact (applySplitRecord_leaves ..).trans (ih _)

theorem dropPlan_leaves (rs : List SlabRecord) (s : State) : RecordLeaves s (dropPlan rs s) := by
  unfold dropPlan
  split
  · exact .of_views rfl rfl rfl rfl rfl
  · exact .refl

/-- R22, R23: an own fragment applied, before the cut unit counts it. -/
def fragmentApplied (pre : Nat) (rs : List SlabRecord) (s : State) : State :=
  dropPlan rs (applySplit s.station pre rs s)

theorem fragmentApplied_leaves (pre : Nat) (rs : List SlabRecord) (s : State) :
    RecordLeaves s (fragmentApplied pre rs s) :=
  (applySplit_leaves ..).trans (dropPlan_leaves ..)

theorem fragmentApplied_cut {pre : Nat} {rs : List SlabRecord} {s : State} (h : s.cut.state = .splitting) :
    (fragmentApplied pre rs s).cut = s.cut :=
  (fragmentApplied_leaves pre rs s).splitting h

theorem ownSplit_eq (pre : Nat) (rs : List SlabRecord) (s : State) : ownSplit pre rs s
    = if (fragmentApplied pre rs s).cut.splitLeft - 1 = 0 ∧ (fragmentApplied pre rs s).cut.state = .splitting then
        toEmpty { fragmentApplied pre rs s with
          cut := { (fragmentApplied pre rs s).cut with splitLeft := (fragmentApplied pre rs s).cut.splitLeft - 1 } }
      else { fragmentApplied pre rs s with
          cut := { (fragmentApplied pre rs s).cut with splitLeft := (fragmentApplied pre rs s).cut.splitLeft - 1 } } := rfl

/-- R22: a fragment that is not the last leaves the cut state SPLITTING. -/
theorem ownSplit_more {pre : Nat} {rs : List SlabRecord} {s : State} (h : s.cut.state = .splitting)
    (hleft : 2 ≤ s.cut.splitLeft) : (ownSplit pre rs s).cut = { s.cut with splitLeft := s.cut.splitLeft - 1 } := by
  rw [ownSplit_eq, fragmentApplied_cut h, if_neg (by omega)]

/-- R22: with the last fragment the cut state becomes EMPTY. -/
theorem ownSplit_last {pre : Nat} {rs : List SlabRecord} {s : State} (h : s.cut.state = .splitting)
    (hleft : s.cut.splitLeft = 1) : (ownSplit pre rs s).cut.state = .empty ∧ (ownSplit pre rs s).cut.held = none
      ∧ (ownSplit pre rs s).plan = { staging := none, plan := none } := by
  rw [ownSplit_eq, fragmentApplied_cut h, if_pos ⟨by rw [hleft], h⟩]
  exact ⟨rfl, rfl, rfl⟩

/-- What the own fragments leave, at any cut state. -/
structure SplitLeaves (s t : State) : Prop where
  expiry : s.stock.heldExpiry = false → t.stock.heldExpiry = false
  line : s.boot.listenOnly = true → t.line = s.line
  outstanding : t.port.outstanding = s.port.outstanding
  listenOnly : t.boot.listenOnly = s.boot.listenOnly
  replies : ∀ q : Reply, PortFrame.reply q ∈ s.port.out.map (·.frame) → PortFrame.reply q ∈ t.port.out.map (·.frame)
  faults : ∀ k, flagOf s.boot.faults k = true → flagOf t.boot.faults k = true

theorem SplitLeaves.trans {s t u : State} (h : SplitLeaves s t) (g : SplitLeaves t u) : SplitLeaves s u where
  expiry hs := g.expiry (h.expiry hs)
  line hs := (g.line (h.listenOnly.trans hs)).trans (h.line hs)
  outstanding := g.outstanding.trans h.outstanding
  listenOnly := g.listenOnly.trans h.listenOnly
  replies q hq := g.replies q (h.replies q hq)
  faults k hk := g.faults k (h.faults k hk)

theorem ownSplit_leaves (pre : Nat) (rs : List SlabRecord) (s : State) : SplitLeaves s (ownSplit pre rs s) := by
  obtain ⟨hexpiry, hline, hout, hlisten, hreplies, hfaults, -⟩ := fragmentApplied_leaves pre rs s
  rw [ownSplit_eq]
  split <;> exact ⟨hexpiry, hline, hout, hlisten, hreplies, hfaults⟩

section
variable (fs : List (Nat × List SlabRecord)) (s : State)

/-- The fragments of a list written into the own view, in their order. -/
def writeFragments : State := fs.foldl (fun s f => ownSplit f.1 f.2 s) s

theorem writeFragments_leaves : SplitLeaves s (writeFragments fs s) := by
  unfold writeFragments
  induction fs generalizing s with
  | nil => exact ⟨id, fun _ => rfl, rfl, rfl, fun _ h => h, fun _ h => h⟩
  | cons f fs ih => exact (ownSplit_leaves ..).trans (ih _)

theorem writeFragments_runState : (writeFragments fs s).boot.runState = s.boot.runState :=
  foldl_keeps _ (fun t : State => t.boot.runState) (fun _ _ => by simp) fs s

theorem writeFragments_water : (writeFragments fs s).water = s.water :=
  foldl_keeps _ (fun t : State => t.water) (fun _ _ => by simp) fs s

theorem writeFragments_cost : (writeFragments fs s).cost = s.cost :=
  foldl_keeps _ (fun t : State => t.cost) (fun _ _ => ownSplit_cost ..) fs s

end

/-- R22, R70: with the fragments that are left the cut state becomes EMPTY. -/
theorem writeFragments_empties {fs : List (Nat × List SlabRecord)} {s : State} (hsome : fs ≠ [])
    (h : s.cut.state = .splitting) (hleft : s.cut.splitLeft = fs.length) :
    (writeFragments fs s).cut.state = .empty ∧ (writeFragments fs s).cut.held = none
      ∧ (writeFragments fs s).plan = { staging := none, plan := none } := by
  induction fs generalizing s with
  | nil => exact absurd rfl hsome
  | cons f fs ih =>
    by_cases hlast : fs = []
    · subst hlast
      exact ownSplit_last h hleft
    · have hmore : 2 ≤ s.cut.splitLeft := by
        have := List.length_pos_iff.mpr hlast
        rw [hleft, List.length_cons]
        omega
      have hcut := ownSplit_more (pre := f.1) (rs := f.2) h hmore
      refine ih hlast (by rw [hcut]; exact h) ?_
      rw [hcut, hleft, List.length_cons]
      rfl

/-! ### Falling silent -/

/-- R173: every waiting command is answered SILENT. -/
def answerSilent (es : List QEntry) (s : State) : State := es.foldl (fun s e => answer e.cmd .silent .none s) s

theorem answerSilent_eq (es : List QEntry) (s : State) :
    answerSilent es s = { s with port := (answerSilent es s).port } := by
  unfold answerSilent
  induction es generalizing s with
  | nil => rfl
  | cons e es ih =>
    have hone : answer e.cmd .silent .none s = { s with port := (answer e.cmd .silent .none s).port } := by
      unfold answer
      split <;> rfl
    rw [List.foldl_cons, ih, hone]

theorem answer_replies {q : Reply} (c : Option Cmd) (st : Status) (b : ReplyBody) {s : State}
    (h : PortFrame.reply q ∈ s.port.out.map (·.frame)) : PortFrame.reply q ∈ (answer c st b s).port.out.map (·.frame) := by
  unfold answer
  split
  · exact h
  · rw [reply_port, startTransmit_frames]
    exact reply_mem_addReply _ h

theorem answer_none_kept (c : Option Cmd) (st : Status) (b : ReplyBody) {s : State} (h : s.port.outstanding = none) :
    (answer c st b s).port.outstanding = none := by
  unfold answer
  split
  · exact h
  · simp

theorem answerSilent_kept {es : List QEntry} {s : State} {q : Reply} (hq : PortFrame.reply q ∈ s.port.out.map (·.frame))
    (h : s.port.outstanding = none) : PortFrame.reply q ∈ (answerSilent es s).port.out.map (·.frame)
      ∧ (answerSilent es s).port.outstanding = none := by
  unfold answerSilent
  induction es generalizing s with
  | nil => exact ⟨hq, h⟩
  | cons e es ih => exact ih (answer_replies _ _ _ hq) (answer_none_kept _ _ _ h)

theorem answerSilent_answers {es : List QEntry} {e : QEntry} {c : Cmd} (he : e ∈ es) (hc : e.cmd = some c) (s : State) :
    PortFrame.reply ⟨replyType (cmdCode c), .silent, .none⟩ ∈ (answerSilent es s).port.out.map (·.frame)
      ∧ (answerSilent es s).port.outstanding = none := by
  induction es generalizing s with
  | nil => exact nomatch he
  | cons x es ih =>
    obtain rfl | he := List.mem_cons.mp he
    · have hx : answer e.cmd .silent .none s
          = reply c .silent .none { s with port := { s.port with outstanding := none } } := by rw [hc]; rfl
      refine answerSilent_kept (s := answer e.cmd .silent .none s) ?_ ?_
      · rw [hx]
        exact reply_mem ..
      · rw [hx]
        simp
    · exact ih he _

/-- R173: the station before its fragments are written. -/
def silencedState (s : State) : State := answerSilent (allEntries s.line)
  { s with
    boot := { s.boot with listenOnly := true, runState := .listenOnly }
    line := { s.line with queue := [], waiters := [], access := .idle, driving := [] }
    stock := { s.stock with heldExpiry := false } }

theorem silence_eq (s : State) :
    silence s = writeFragments ((allEntries s.line).filterMap splitOf) (silencedState s) := rfl

theorem silencedState_eq (s : State) : silencedState s = { s with
    boot := { s.boot with listenOnly := true, runState := .listenOnly }
    line := { s.line with queue := [], waiters := [], access := .idle, driving := [] }
    stock := { s.stock with heldExpiry := false }
    port := (silencedState s).port } := answerSilent_eq ..

/-- R173, R170: the entries that are SPLIT fragments. -/
def isSplit : Notice → Bool
  | .split _ _ => true
  | _ => false

theorem splitOf_isSome (e : QEntry) : (splitOf e).isSome = isSplit e.notice := by
  unfold splitOf isSplit
  cases e.notice <;> rfl

theorem filterMap_splitOf_length (es : List QEntry) :
    (es.filterMap splitOf).length = (es.filter fun e => isSplit e.notice).length := by
  simp only [← splitOf_isSome, List.length_filterMap_eq_countP, List.countP_eq_length_filter]

theorem filterMap_splitOf_nil {es : List QEntry} (h : ∀ e ∈ es, ∀ pre rs, e.notice ≠ .split pre rs) :
    es.filterMap splitOf = [] := by
  refine List.filterMap_eq_nil_iff.mpr fun e he => ?_
  unfold splitOf
  split
  · next pre rs hn => exact absurd hn (h e he pre rs)
  · rfl

/-- The fragments of a list of entries, told from their notices. -/
theorem filterMap_splitOf_one {es : List QEntry} {pre : Nat} {rs : List SlabRecord}
    (h : (es.map (·.notice)).filter isSplit = [.split pre rs]) : es.filterMap splitOf = [(pre, rs)] := by
  have hsplit : es.filterMap splitOf = ((es.map (·.notice)).filter isSplit).filterMap fun n => match n with
      | .split pre rs => some (pre, rs)
      | _ => none := by
    rw [List.filterMap_filter, List.filterMap_map]
    refine List.filterMap_congr fun e _ => ?_
    simp only [Function.comp_apply, splitOf, isSplit]
    cases e.notice <;> rfl
  rw [hsplit, h]
  rfl

/-- R21, R70: the parent's fragment alone, written at its holder. -/
theorem ownSplit_parent_table {pre : Nat} {r v : SlabRecord} {s : State} (hv : s.slab r.id = some v)
    (hpre : v.version = pre) (hloaded : v.state = .loaded) (hholder : v.holder = some s.station) (hr : r.state = .cut) :
    (ownSplit pre [r] s).stock.table = s.stock.table.map fun x => if x.slab.id = r.id then ⟨r, none⟩ else x := by
  have hrecord : applySplit s.station pre [r] s = applySplitRecord s.station pre s r := rfl
  have hdrop : ∀ (rs : List SlabRecord) (t : State), (dropPlan rs t).stock = t.stock := fun rs t => by simp
  have hstock : (ownSplit pre [r] s).stock = (fragmentApplied pre [r] s).stock := by
    rw [ownSplit_eq]
    split <;> rfl
  rw [hstock, fragmentApplied, hdrop, hrecord, applySplitRecord_parent pre r v s hr hv hpre hloaded hholder]

/-! ### The events -/

/-- A notice heard is the end of a frame. -/
theorem exec_noticeEvent (sender index count : Nat) (n : Notice) (s : State) :
    ∃ take, exec (noticeEvent sender index count n) s = .next (atFrameEnd take s) := by
  cases n <;> exact ⟨_, rfl⟩

theorem exec_frameDropped (bytes : List Byte) (s : State) : exec (.frameDropped bytes) s
    = .next (atFrameEnd (fun s => if (frameFault bytes).isSome = true then countReceiveError s else s) s) := rfl

theorem exec_duplicateNumber (s : State) : exec .duplicateNumber s = .next (atFrameEnd duplicateHeard s) := rfl

/-- R172: a frame with the own number reveals a duplicate whatever it carries. -/
theorem judgeFrame_own {index count : Nat} {n : Notice} {s : State} (apply : State → State) (hlow : 1 ≤ s.station)
    (hhigh : s.station ≤ 30) (hfragment : fragmentOk (kindCode n) index count = true) (hfit : noticeFits n = true) :
    judgeFrame s.station index count n apply s = duplicateHeard s := by
  rw [judgeFrame, if_neg (by simp [hfragment, hfit]; omega), if_pos rfl]

theorem exec_own_draw {s : State} (q : Nat) (l : Bool) (g : Nat) (hlow : 1 ≤ s.station) (hhigh : s.station ≤ 30) :
    exec (.drawNotice s.station q l g) s = exec .duplicateNumber s := by
  refine congrArg Host.Outcome.next (?_ : hear _ _ _ _ _ s = atFrameEnd duplicateHeard s)
  simp only [hear, atFrameEnd, judgeFrame_own (index := 1) (count := 1) (n := .draw q l g) _ hlow hhigh rfl rfl]

section
variable {s : State} (hlisten : s.boot.listenOnly = false)
include hlisten

theorem duplicateHeard_silences : duplicateHeard s = silence (raise .dupStation s.station s) := by
  rw [duplicateHeard, if_neg (by simp [hlisten])]

end

/-- R172, R173: the station that has heard its own number, before its fragments are written. -/
def duplicateState (s : State) : State := silencedState (raise .dupStation s.station s)

theorem duplicateState_eq (s : State) : duplicateState s = { s with
    boot := { s.boot with
      faults := setFlag s.boot.faults .dupStation, lastFault := some ⟨.dupStation, s.boot.shopTime, s.station⟩
      listenOnly := true, runState := .listenOnly }
    line := { s.line with queue := [], waiters := [], access := .idle, driving := [] }
    stock := { s.stock with heldExpiry := false }
    port := (duplicateState s).port } := by
  rw [duplicateState, silencedState_eq]
  rfl

/-- Settles O59. -/
theorem hearingFaults : Obligations.HearingFaults := by
  unfold Obligations.HearingFaults
  intro s
  refine ⟨fun hj ha hm i hi => ?_, fun bytes hfault hj ha hm => ?_, fun bytes hj => ?_,
    fun hj ha hm => ⟨fun hlisten => ?_, fun hlisten => ?_, fun q l g => exec_own_draw q l g⟩⟩
  · obtain ⟨take, hexec⟩ : ∃ take, exec i s = .next (atFrameEnd take s) := by
      obtain rfl | ⟨bytes, rfl⟩ | ⟨sender, index, count, n, rfl⟩ := hi
      · exact ⟨_, exec_duplicateNumber s⟩
      · exact ⟨_, exec_frameDropped bytes s⟩
      · exact exec_noticeEvent ..
    rw [hexec, (atFrameEnd_eq take s).2.1 hj ha hm]
    rfl
  · rw [exec_frameDropped, (atFrameEnd_eq _ s).1 hj ha hm]
    exact congrArg Host.Outcome.next (if_pos (Option.isSome_iff_ne_none.mpr hfault))
  · rw [exec_frameDropped, (atFrameEnd_eq _ s).2.2 (.inl hj)]
  · rw [exec_duplicateNumber, (atFrameEnd_eq _ s).1 hj ha hm]
    exact congrArg Host.Outcome.next (if_pos hlisten)
  · rw [exec_duplicateNumber, (atFrameEnd_eq _ s).1 hj ha hm, duplicateHeard_silences hlisten, silence_eq]
    have hentries : allEntries (raise .dupStation s.station s).line = allEntries s.line := rfl
    rw [hentries, show silencedState (raise .dupStation s.station s) = duplicateState s from rfl]
    have hstate := duplicateState_eq s
    obtain ⟨hexpiry, hline, hout, hlisten', hreplies, hfaults⟩ :=
      writeFragments_leaves ((allEntries s.line).filterMap splitOf) (duplicateState s)
    refine ⟨_, rfl, ?_, ?_, ?_, ?_, ?_, ?_, ?_, fun hnone => ?_, fun hcut hleft hcount => ?_,
      fun pre r v hw hone hv hpre hloaded hholder hr hcut => ?_, fun e he c hc => ?_⟩
    · rw [hlisten', hstate]
    · rw [writeFragments_runState, hstate]
    · exact hfaults .dupStation (by rw [hstate]; rfl)
    · rw [hline (by rw [hstate]), hstate]
    · exact hexpiry (by rw [hstate])
    · rw [writeFragments_water, hstate]
    · rw [writeFragments_cost, hstate]
    · rw [filterMap_splitOf_nil hnone, writeFragments, List.foldl_nil, hstate]
      exact ⟨rfl, rfl, rfl, rfl⟩
    · have hlen : ((allEntries s.line).filterMap splitOf).length = s.cut.splitLeft := by
        rw [filterMap_splitOf_length, ← hcount]
        rfl
      refine writeFragments_empties ?_ (by rw [hstate]; exact hcut) (by rw [hstate]; exact hlen.symm)
      intro hnil
      rw [hnil, List.length_nil] at hlen
      omega
    · have hqueue : allEntries s.line = s.line.queue := by simp [allEntries, hw]
      rw [hqueue, filterMap_splitOf_one hone, hstate]
      exact ownSplit_parent_table hv hpre hloaded hholder hr
    · obtain ⟨hreply, hnone⟩ := answerSilent_answers (hentries ▸ he) hc
        { raise .dupStation s.station s with
          boot := { (raise .dupStation s.station s).boot with listenOnly := true, runState := .listenOnly }
          line := { s.line with queue := [], waiters := [], access := .idle, driving := [] }
          stock := { s.stock with heldExpiry := false } }
      exact ⟨hreplies _ hreply, hout.trans hnone⟩

end Sys2Proof.Machine
end
section
/-! PROOF. What the owners do with the head as the quiet wait ends (R9, R14, R28, R58, R108, R115, R124, R137, R167). -/

namespace Sys2Proof.Machine

/-! ### The attempt -/

/-- Answering a command changes the port alone. -/
theorem answer_withLine (c : Option Cmd) (st : Status) (b : ReplyBody) (s : State) (l : Line) :
    answer c st b { s with line := l } = { answer c st b s with line := l } := by
  cases c <;> rfl

theorem answer_withStock (c : Option Cmd) (st : Status) (b : ReplyBody) (s : State) (k : Stock) :
    answer c st b { s with stock := k } = { answer c st b s with stock := k } := by
  cases c <;> rfl

/-- The station as the last entry of its queue has left. -/
def lineEmptied (s : State) : State :=
  { s with line := { s.line with queue := [], access := .idle, midFrame := false, driving := [] } }

section
variable {s : State} {e : QEntry} {rest : List QEntry} {quiet : Bool} (hj : s.joined = true)
    (hq : s.line.queue = e :: rest) (ha : s.line.access = .waitQuiet)
include hj hq ha

/-- R167: the owner sends the head with a notice. -/
theorem quiet_sent {n : Notice} (h : revalidate s e = .send { e with notice := n }) :
    exec (.quietWaitElapsed quiet) s = .next { s with line := { s.line with
      queue := { e with notice := n, attempts := e.attempts + 1 } :: rest
      access := .sending, midFrame := false, driving := encodeFrame s.station e.index e.count n } } :=
  congrArg Host.Outcome.next (quietElapsed_send quiet e _ rest s hj hq ha h)

theorem quiet_withdrawn {code : Status} (h : revalidate s e = .withdraw code) :
    exec (.quietWaitElapsed quiet) s = .next (attempt quiet ((allEntries s.line).length + 2) quiet
      (withdrawn e code (joinLine false s))) :=
  congrArg Host.Outcome.next (quietElapsed_withdraw quiet e rest code s hj hq ha h)

omit hj ha in
/-- R167: a withdrawn entry behind which none waits, before a held expiry takes effect. -/
theorem withdrawn_alone {code : Status} (hrest : rest = []) (hw : s.line.waiters = []) :
    withdrawn e code (joinLine false s) = releaseExpiry e
      (if isWait code = true then setMark (answer e.cmd code .none (lineEmptied s))
        else answer e.cmd code .none (lineEmptied s)) := by
  subst hrest
  have hleave : leaveQueue (joinLine false s) = lineEmptied s := leaveQueue_noWaiters e [] _ hq hw
  rw [withdrawn, hleave]

omit hj hq ha in
theorem releaseExpiry_none {t : State} (h : t.stock.heldExpiry = false) : releaseExpiry e t = t := by
  unfold releaseExpiry
  split
  · rfl
  · exact if_neg fun hx => by rw [h] at hx; cases hx.1

/-- R167: the last entry is withdrawn with a code that is no WAIT reason. -/
theorem quiet_gone {code : Status} (h : revalidate s e = .withdraw code) (hcode : isWait code = false) (hrest : rest = [])
    (hw : s.line.waiters = []) (hx : s.stock.heldExpiry = false) :
    exec (.quietWaitElapsed quiet) s = .next (answer e.cmd code .none (lineEmptied s)) := by
  rw [quiet_withdrawn hj hq ha h, withdrawn_alone hq hrest hw, if_neg (ne_true_of_eq_false hcode),
    releaseExpiry_none (by simp [lineEmptied, hx]), attempt_empty _ _ _ _ (by simp [lineEmptied])]

/-- R58, R61: the last entry is withdrawn with a WAIT reason, and the mark it sets stands. -/
theorem quiet_goneWaiting {code : Status} (h : revalidate s e = .withdraw code) (hcode : isWait code = true)
    (hmark : markPasses { s with cut := { s.cut with waiting := true } } = false) (hrest : rest = [])
    (hw : s.line.waiters = []) (hx : s.stock.heldExpiry = false) :
    exec (.quietWaitElapsed quiet) s = .next
      { answer e.cmd code .none (lineEmptied s) with cut := { s.cut with waiting := true } } := by
  have hmark' : markPasses { answer e.cmd code .none (lineEmptied s) with
      cut := { (answer e.cmd code .none (lineEmptied s)).cut with waiting := true } } = false := by
    cases e.cmd <;> exact hmark
  have hcut : (answer e.cmd code .none (lineEmptied s)).cut = s.cut := by simp [lineEmptied]
  rw [quiet_withdrawn hj hq ha h, withdrawn_alone hq hrest hw, if_pos hcode, setMark_stands hmark', hcut,
    releaseExpiry_none (by simp [lineEmptied, hx]), attempt_empty _ _ _ _ (by simp [lineEmptied])]

/-- R14: the last entry is withdrawn while an expiry is held for it. -/
theorem quiet_held {code : Status} (h : revalidate s e = .withdraw code) (hcode : isWait code = false) (hrest : rest = [])
    (hw : s.line.waiters = []) :
    exec (.quietWaitElapsed quiet) s = .next (attempt quiet ((allEntries s.line).length + 2) quiet
      (releaseExpiry e (answer e.cmd code .none (lineEmptied s)))) := by
  rw [quiet_withdrawn hj hq ha h, withdrawn_alone hq hrest hw, if_neg (ne_true_of_eq_false hcode)]

end

/-- R166, R167: an entry that its owner sends as it stands. -/
theorem attempt_sends {s : State} {e : QEntry} {rest : List QEntry} (quiet still : Bool) (fuel : Nat)
    (hq : s.line.queue = e :: rest) (h : revalidate s e = .send e) :
    attempt still (fuel + 1) quiet s = { s with line :=
      if quiet = true then { s.line with
        queue := { e with attempts := e.attempts + 1 } :: rest
        access := .sending, driving := encodeFrame s.station e.index e.count e.notice }
      else { s.line with queue := e :: rest, access := .waitQuiet } } := by
  rw [attempt, hq]
  simp only [h]
  cases quiet
  · simp [holdHead, hq]
  · simp [beginSending, hq]

/-! ### The stock unit's answers -/

section
variable {s : State} {id : SlabId} {pre : Nat} {code : Status} {e : QEntry}

theorem ifUnmoved_sends (h : ∃ v, s.slab id = some v ∧ v.version = pre) : ifUnmoved s id pre code e = .send e := by
  obtain ⟨v, hv, hpre⟩ := h
  rw [ifUnmoved, hv]
  exact if_pos hpre

theorem ifUnmoved_withdraws (h : ∀ v, s.slab id = some v → v.version ≠ pre) :
    ifUnmoved s id pre code e = .withdraw code := by
  rw [ifUnmoved]
  split
  · next v hv => exact if_neg (h v hv)
  · rfl

theorem reversion_sends {still : SlabState} {rebuild : SlabRecord → Notice} {v : SlabRecord} (hv : s.slab id = some v)
    (hpre : v.version = pre) : reversion s id pre still rebuild e = .send e := by
  rw [reversion, hv]
  exact if_pos hpre

theorem reversion_rebuilds {still : SlabState} {rebuild : SlabRecord → Notice} {v : SlabRecord} (hv : s.slab id = some v)
    (hpre : v.version ≠ pre) (hstill : v.state = still) :
    reversion s id pre still rebuild e = .send { e with notice := rebuild v } := by
  rw [reversion, hv]
  exact (if_neg hpre).trans (if_pos hstill)

theorem reversion_withdraws {still : SlabState} {rebuild : SlabRecord → Notice}
    (h : ∀ v, s.slab id = some v → v.version ≠ pre ∧ v.state ≠ still) :
    reversion s id pre still rebuild e = .withdraw .stale := by
  rw [reversion]
  split
  · rfl
  · next v hv => rw [if_neg (h v hv).1, if_neg (h v hv).2]

end

/-- R7: when the precondition of an own CLAIM holds. -/
theorem precondition_claim_iff (own : Nat) (r v : SlabRecord) : precondition .claim own r v = true ↔ v.state = .free
    ∨ (v.state = .claimed ∧ v.holder ≠ some own ∧ v.priority.getD 0 < r.priority.getD 0) := by
  simp [precondition, and_assoc]

section
variable {s : State} {pre : Nat} {r : SlabRecord} {e : QEntry}

theorem revalidateClaim_sends {v : SlabRecord} (hv : s.slab r.id = some v)
    (hwins : precondition .claim s.station r v = true) (hopen : jobClosed s.cost.jobs (r.job.getD 0) = false) :
    (v.version = pre → revalidateClaim s pre r e = .send e)
    ∧ (v.version ≠ pre → revalidateClaim s pre r e = .send { e with
      notice := .claim v.version (claimedRecord s.station (r.job.getD 0) (r.priority.getD 0) v) }) := by
  have hcase : revalidateClaim s pre r e = if v.version = pre then .send e else .send { e with
      notice := .claim v.version (claimedRecord s.station (r.job.getD 0) (r.priority.getD 0) v) } := by
    simp only [revalidateClaim, hv, hwins, hopen, Bool.false_eq_true, Bool.true_eq_false, if_false]
  rw [hcase]
  exact ⟨fun h => if_pos h, fun h => if_neg h⟩

theorem revalidateClaim_lost (h : ∀ v, s.slab r.id = some v → ¬ precondition .claim s.station r v = true) :
    revalidateClaim s pre r e = .withdraw .lost := by
  rw [revalidateClaim]
  split
  · rfl
  · next v hv => exact if_pos (Bool.eq_false_iff.mpr (h v hv))

theorem revalidateClaim_stale {v : SlabRecord} (hv : s.slab r.id = some v)
    (hwins : precondition .claim s.station r v = true) (hclosed : jobClosed s.cost.jobs (r.job.getD 0) = true) :
    revalidateClaim s pre r e = .withdraw .stale := by
  simp only [revalidateClaim, hv, hwins, hclosed, Bool.true_eq_false, if_false, if_true]

end

section
variable {s : State} {e : QEntry} {pre : Nat} {r : SlabRecord}

theorem revalidate_own_slab (h : e.notice = .free .released pre r ∨ e.notice = .free .unloaded pre r
    ∨ e.notice = .load pre r) : revalidate s e = ifUnmoved s r.id pre .lost e := by
  obtain h | h | h := h <;> simp only [revalidate, h]

theorem revalidate_plain (h : (∃ r, e.notice = .yardIn r) ∨ (∃ pre rs, e.notice = .split pre rs) ∨ e.notice = .stockAsk
    ∨ e.notice = .restart) : revalidate s e = .send e := by
  obtain ⟨r, h⟩ | ⟨pre, rs, h⟩ | h | h := h <;> simp only [revalidate, h]

/-- R14: a LOAD or FREE whose entry has moved is withdrawn, and it is one an expiry may be held for. -/
theorem held_withdraws {v : SlabRecord} {code : Status} (h : ((e.notice = .free .released pre r
      ∨ e.notice = .free .unloaded pre r ∨ e.notice = .load pre r) ∧ code = Status.lost)
      ∨ (e.notice = .free .orphan pre r ∧ code = .ok)) (hv : s.slab r.id = some v) (hmoved : v.version ≠ pre) :
    revalidate s e = .withdraw code ∧ isWait code = false ∧ holdsExpiry r.id e = true := by
  have hwithdraw : ∀ code', ifUnmoved s r.id pre code' e = .withdraw code' := fun code' =>
    ifUnmoved_withdraws fun v' hv' => by rw [hv] at hv'; cases hv'; exact hmoved
  obtain ⟨hn, rfl⟩ | ⟨hn, rfl⟩ := h
  · refine ⟨(revalidate_own_slab hn).trans (hwithdraw _), rfl, ?_⟩
    obtain hn | hn | hn := hn <;> simp [holdsExpiry, hn]
  · refine ⟨?_, rfl, by simp [holdsExpiry, hn]⟩
    simp only [revalidate, hn]
    exact hwithdraw _

end

/-- Settles O47. -/
theorem stockRevalidation : Obligations.StockRevalidation := by
  unfold Obligations.StockRevalidation
  intro s e rest quiet hj hq ha sent gone onlyUnmoved
  have hsent : ∀ {n}, revalidate s e = .send { e with notice := n } → sent n := fun h => quiet_sent hj hq ha h
  have hasis : revalidate s e = .send e → sent e.notice := fun h => quiet_sent hj hq ha h
  have hgone : ∀ {code}, revalidate s e = .withdraw code → isWait code = false → gone code :=
    fun h hcode hrest hw hx => quiet_gone hj hq ha h hcode hrest hw hx
  have hunmoved : ∀ {id pre code}, revalidate s e = ifUnmoved s id pre code e → isWait code = false →
      onlyUnmoved id pre code := fun h hcode =>
    ⟨fun hv => hasis (h.trans (ifUnmoved_sends hv)), fun hv => hgone (h.trans (ifUnmoved_withdraws hv)) hcode⟩
  refine ⟨fun pre r hn => ?_, fun pre r hn => hunmoved (by simp only [revalidate, hn]) rfl,
    fun pre r hn => hunmoved (revalidate_own_slab hn) rfl, fun pre r hn => hunmoved (by simp only [revalidate, hn]) rfl,
    fun pre r hn => ?_, fun pre r hn => ?_, fun hn => hasis (revalidate_plain hn), fun rs hn => ?_,
    fun pre r v code hn hv hmoved hrest hw hx hheld => ?_⟩
  · intro wins closed
    have hval : revalidate s e = revalidateClaim s pre r e := by simp only [revalidate, hn]
    have hclosed : closed ↔ jobClosed s.cost.jobs (r.job.getD 0) = true := (jobClosed_iff ..).symm
    have hwins : ∀ v, wins v ↔ precondition .claim s.station r v = true := fun v => (precondition_claim_iff ..).symm
    refine ⟨fun v hv hw hc => ?_, fun hlost => ?_, fun v hv hw hc => ?_⟩
    · obtain ⟨hsame, hother⟩ := revalidateClaim_sends (pre := pre) (e := e) hv ((hwins v).mp hw)
        (Bool.eq_false_iff.mpr fun h => hc (hclosed.mpr h))
      exact ⟨fun h => hasis (hval.trans (hsame h)), fun h => hsent (hval.trans (hother h))⟩
    · exact hgone (hval.trans (revalidateClaim_lost fun v hv h => hlost v hv ((hwins v).mpr h))) rfl
    · exact hgone (hval.trans (revalidateClaim_stale hv ((hwins v).mp hw) (hclosed.mp hc))) rfl
  · have hval : revalidate s e = reversion s r.id pre .claimed (fun v => .free .forced v.version (freedRecord v)) e := by
      simp only [revalidate, hn]
    exact ⟨fun v hv h => hasis (hval.trans (reversion_sends hv h)),
      fun v hv h hst => hsent (hval.trans (reversion_rebuilds hv h hst)),
      fun h => hgone (hval.trans (reversion_withdraws h)) rfl⟩
  · have hval : revalidate s e = reversion s r.id pre .free (fun v => .scrap v.version (scrappedRecord v)) e := by
      simp only [revalidate, hn]
    exact ⟨fun v hv h => hasis (hval.trans (reversion_sends hv h)),
      fun v hv h hst => hsent (hval.trans (reversion_rebuilds hv h hst)),
      fun h => hgone (hval.trans (reversion_withdraws h)) rfl⟩
  · have hval : revalidate s e = if refreshRecords s rs = [] then .withdraw .ok
        else .send { e with notice := .stockState (refreshRecords s rs) } := by simp only [revalidate, hn]
    exact ⟨fun h => hsent (hval.trans (if_neg h)), fun h => hgone (hval.trans (if_pos h)) rfl⟩
  · intro u last
    obtain ⟨hval, hcode, hholds⟩ := held_withdraws hn hv hmoved
    have hid := slab_id hv
    have hanswer : answer e.cmd code .none (lineEmptied s)
        = { answer e.cmd code .none s with line := (lineEmptied s).line } := answer_withLine ..
    have hu : u = { answer e.cmd code .none s with stock := { s.stock with heldExpiry := false } } := answer_withStock ..
    obtain ⟨hnot, hlapse⟩ := releaseExpiry_held e r v (answer e.cmd code .none (lineEmptied s)) hholds
      (by simpa [lineEmptied] using hheld) (by simpa [lineEmptied] using hx) (by rw [hanswer]; cases e.cmd <;> exact hv)
    rw [quiet_held hj hq ha hval hcode hrest hw, hu]
    refine ⟨fun hfree => ?_, fun hclaimed hholder hlisten => ?_⟩
    · rw [hnot (by cases e.cmd <;> exact hfree), attempt_empty _ _ _ _ (by simp [lineEmptied]), hanswer]
      cases e.cmd <;> rfl
    · rw [hlapse hclaimed (by cases e.cmd <;> exact hholder) (by simpa [lineEmptied] using hlisten)
        (by simp [lineEmptied, queueMax])]
      rw [attempt_sends (rest := []) quiet quiet _ (e := last)]
      · rw [hanswer, hid]
        cases e.cmd <;> rfl
      · rw [hanswer]
        rfl
      · refine ifUnmoved_sends ⟨v, ?_, rfl⟩
        rw [hanswer]
        change State.slab _ v.id = _
        rw [hid]
        cases e.cmd <;> exact hv

end Sys2Proof.Machine
end
section
/-! PROOF. What the other units do with their notices at the head as the quiet wait ends (R58, R108, R115, R124, R137,
R167). -/

namespace Sys2Proof.Machine

section
variable {s : State} {e : QEntry}

theorem revalidate_lock {q g : Nat} {l : Bool} (hn : e.notice = .draw q l g) (hp : e.purpose = some .lock) :
    revalidate s e = revalidateLock s e := by
  simp only [revalidate, hn, if_pos hp]

theorem revalidate_draw {q g : Nat} {l : Bool} (hn : e.notice = .draw q l g) (hp : e.purpose ≠ some .lock) :
    revalidate s e = revalidateDraw s e := by
  simp only [revalidate, hn, if_neg hp]

theorem revalidateLock_sends (hcut : s.cut.state = .planned) (hstop : s.water.stop = false)
    (hgrant : minWetting s.bladeType ≤ s.ownGrant) :
    revalidateLock s e = .send { e with notice := .draw s.water.ownRequest true s.ownGrant } := by
  rw [revalidateLock, if_neg (not_not_intro hcut), if_neg (ne_true_of_eq_false hstop), if_neg (Nat.not_lt.mpr hgrant)]

theorem revalidateLock_lost (hcut : s.cut.state ≠ .planned) : revalidateLock s e = .withdraw .lost := if_pos hcut

theorem revalidateLock_stop (hcut : s.cut.state = .planned) (hstop : s.water.stop = true) :
    revalidateLock s e = .withdraw .waitStop := by
  rw [revalidateLock, if_neg (not_not_intro hcut), if_pos hstop]

theorem revalidateLock_water (hcut : s.cut.state = .planned) (hstop : s.water.stop = false)
    (hgrant : s.ownGrant < minWetting s.bladeType) : revalidateLock s e = .withdraw .waitWater := by
  rw [revalidateLock, if_neg (not_not_intro hcut), if_neg (ne_true_of_eq_false hstop), if_pos hgrant]

/-- R115: an own DRAW that would change nothing, outside a step. -/
theorem drawIdle_iff (hmid : midStep s.cut.state = false) : drawIdle s e = true
    ↔ (e.purpose = some .request ∨ e.purpose = some .prompt) ∧ e.absorbed = false ∧ s.ownDraw.locked = false
      ∧ s.ownDraw.requested = s.water.ownRequest
      ∧ min s.water.ownRequest (s.water.capacity - othersSum s.water.draws s.station) = s.ownGrant := by
  simp only [drawIdle, hmid, Bool.and_eq_true, Bool.or_eq_true, Bool.not_eq_true', decide_eq_true_eq, Bool.not_false,
    and_true, and_assoc]
  rfl

theorem drawIdle_midStep (hmid : midStep s.cut.state = true) : drawIdle s e = false := by
  simp [drawIdle, hmid]

theorem revalidateDraw_midStep (hmid : midStep s.cut.state = true) :
    revalidateDraw s e = .send { e with notice := .draw s.water.ownRequest true s.ownGrant } := by
  rw [revalidateDraw, if_neg (ne_true_of_eq_false (drawIdle_midStep hmid)), if_pos hmid]

theorem revalidateDraw_idle (h : drawIdle s e = true) : revalidateDraw s e = .withdraw .ok := if_pos h

theorem revalidateDraw_sends (hmid : midStep s.cut.state = false) (h : ¬ drawIdle s e = true) :
    revalidateDraw s e = .send { e with notice := .draw s.water.ownRequest false 0 } := by
  rw [revalidateDraw, if_neg h, if_neg (ne_true_of_eq_false hmid)]

/-- R57, R61: while a check of a CUT-ASK fails the waiting mark stands. -/
theorem markPasses_fails (hcut : s.cut.state = .planned)
    (h : s.water.stop = true ∨ s.ownGrant < minWetting s.bladeType) :
    markPasses { s with cut := { s.cut with waiting := true } } = false := by
  rw [markPasses_planned (by exact hcut), Bool.eq_false_iff]
  intro hnone
  obtain ⟨-, -, hstop, -, hgrant⟩ := (waitReason_eq_none_iff _).mp (Option.isNone_iff_eq_none.mp hnone)
  obtain h | h := h
  · exact Bool.false_ne_true (hstop.symm.trans h)
  · exact absurd hgrant (Nat.not_le.mpr h)

theorem revalidate_tally_or_job (h : (∃ t, e.notice = .tally t) ∨ (∃ j, e.notice = .jobOpen j)
    ∨ (∃ j, e.notice = .jobClose j)) : revalidate s e = .send e := by
  obtain ⟨t, h⟩ | ⟨j, h⟩ | ⟨j, h⟩ := h <;> simp only [revalidate, h]

theorem revalidate_override (h : e.notice = .waterOverride) : (s.water.stop = true → revalidate s e = .send e)
    ∧ (s.water.stop = false → revalidate s e = .withdraw .stale) := by
  have hval : revalidate s e = if s.water.stop = true then .send e else .withdraw .stale := by
    simp only [revalidate, h]
  exact ⟨fun hs => hval.trans (if_pos hs), fun hs => hval.trans (if_neg (ne_true_of_eq_false hs))⟩

end

/-- Settles O48. -/
theorem waterRevalidation : Obligations.WaterRevalidation := by
  unfold Obligations.WaterRevalidation
  intro s e rest quiet hj hq ha sent left gone goneWaiting request others
  have hsent : ∀ {n}, revalidate s e = .send { e with notice := n } → sent n := fun h => quiet_sent hj hq ha h
  have hasis : revalidate s e = .send e → sent e.notice := fun h => quiet_sent hj hq ha h
  have hgone : ∀ {code}, revalidate s e = .withdraw code → isWait code = false → gone code :=
    fun h hcode hrest hw hx => quiet_gone hj hq ha h hcode hrest hw hx
  have hwaiting : ∀ {code}, revalidate s e = .withdraw code → isWait code = true →
      markPasses { s with cut := { s.cut with waiting := true } } = false → goneWaiting code :=
    fun h hcode hmark hrest hw hx => quiet_goneWaiting hj hq ha h hcode hmark hrest hw hx
  refine ⟨fun q l g hn hp => ?_, fun q l g hn hp => ?_, fun c f st sl hn => ?_, fun hn => ?_,
    fun hn => hasis (revalidate_tally_or_job hn), fun e2 rest2 hn hstop hrest hn2 hw hx => ?_⟩
  · have hval := revalidate_lock (s := s) hn hp
    exact ⟨fun hcut hstop hgrant => hsent (hval.trans (revalidateLock_sends hcut hstop hgrant)),
      fun hcut => hgone (hval.trans (revalidateLock_lost hcut)) rfl,
      fun hcut hstop => hwaiting (hval.trans (revalidateLock_stop hcut hstop)) rfl (markPasses_fails hcut (.inl hstop)),
      fun hcut hstop hgrant => hwaiting (hval.trans (revalidateLock_water hcut hstop hgrant)) rfl
        (markPasses_fails hcut (.inr hgrant))⟩
  · have hval := revalidate_draw (s := s) hn hp
    refine ⟨fun hmid => hsent (hval.trans (revalidateDraw_midStep ((midStep_iff _).mpr hmid))), fun hc hs => ?_⟩
    have hmid : midStep s.cut.state = false := Bool.eq_false_iff.mpr fun h => ((midStep_iff _).mp h).elim hc hs
    intro idle
    have hidle : idle ↔ drawIdle s e = true := (drawIdle_iff hmid).symm
    exact ⟨fun h => hgone (hval.trans (revalidateDraw_idle (hidle.mp h))) rfl,
      fun h => hsent (hval.trans (revalidateDraw_sends hmid fun hi => h (hidle.mpr hi)))⟩
  · refine hsent ?_
    simp only [revalidate, hn]
    rfl
  · obtain ⟨hset, hclear⟩ := revalidate_override (s := s) hn
    exact ⟨fun hstop => hasis (hset hstop), fun hstop => hgone (hclear hstop) rfl⟩
  · subst hrest
    have hleave : leaveQueue (joinLine false s) = { s with line := { s.line with
        queue := e2 :: rest2, access := .waitQuiet, midFrame := false, driving := [] } } :=
      leaveQueue_noWaiters e _ _ hq hw
    have hwithdrawn : withdrawn e .stale (joinLine false s) = answer e.cmd .stale .none { s with line := { s.line with
        queue := e2 :: rest2, access := .waitQuiet, midFrame := false, driving := [] } } := by
      rw [withdrawn, hleave]
      rw [if_neg (by decide)]
      exact releaseExpiry_none (by simpa using hx)
    rw [quiet_withdrawn hj hq ha ((revalidate_override hn).2 hstop), hwithdrawn,
      attempt_sends quiet quiet _ (e := e2) (rest := rest2) (by simp)
        (revalidate_plain (.inr (.inr (.inr hn2))))]
    rw [hn2]
    cases e.cmd <;> cases quiet <;> rfl

end Sys2Proof.Machine
end
section
/-! PROOF. An echo that differs: the deferral, and the notice lost at attempt 8 (R14, R23, R169, R170). -/

namespace Sys2Proof.Machine

theorem deferralSlots_range (n a : Nat) : 1 ≤ deferralSlots n a ∧ deferralSlots n a ≤ 2 ^ min a 4 := by
  have hpos : 0 < 2 ^ min a 4 := Nat.two_pow_pos _
  have hlt := Nat.mod_lt (Config.deferralDraw n) hpos
  unfold deferralSlots
  omega

/-- The station as the head has left the queue. -/
def headGone (rest : List QEntry) (s : State) : State :=
  { s with line := { s.line with queue := rest, access := if rest = [] then .idle else .waitQuiet, driving := [] } }

/-- R170: the notice is lost and its command answered. -/
def lostState (e : QEntry) (rest : List QEntry) (s : State) : State :=
  answer e.cmd .lineLost .none (raise .lineLost (lostDetail s.station e.notice) (headGone rest s))

theorem lostState_eq (e : QEntry) (rest : List QEntry) (s : State) : lostState e rest s
    = { headGone rest s with
        boot := (raise .lineLost (lostDetail s.station e.notice) (headGone rest s)).boot
        port := (lostState e rest s).port } := by
  unfold lostState
  cases e.cmd <;> rfl

section
variable {s : State} {e : QEntry} {rest : List QEntry} (ha : s.line.access = .sending) (hq : s.line.queue = e :: rest)
include ha hq

theorem exec_echoMismatch : exec .echoMismatch s = .next (if 8 ≤ e.attempts then noticeLost e s else { s with
    freeCount := s.freeCount + 1
    line := { s.line with
      access := .deferring (deferralSlots s.freeCount e.attempts), driving := []
      deferrals := countUp s.line.deferrals } }) := by
  refine congrArg Host.Outcome.next (?_ : echoDiffers s = _)
  simp only [echoDiffers, ha, hq]

/-- R170: what is left to do as attempt 8 has been abandoned. -/
theorem exec_lost (h8 : 8 ≤ e.attempts) (hw : s.line.waiters = []) :
    exec .echoMismatch s = .next (lostSplit e (releaseExpiry e (lostState e rest s))) := by
  have hleave : leaveQueue s = headGone rest s := leaveQueue_noWaiters e rest s hq hw
  rw [exec_echoMismatch ha hq, if_pos h8, noticeLost, hleave]
  rfl

end

theorem lostSplit_other {e : QEntry} (h : ∀ pre rs, e.notice ≠ .split pre rs) (s : State) : lostSplit e s = s := by
  unfold lostSplit
  split
  · next pre rs hn => exact absurd hn (h pre rs)
  · rfl

theorem lostSplit_again {e : QEntry} {pre : Nat} {rs : List SlabRecord} (hn : e.notice = .split pre rs)
    (hsecond : e.second = false) (s : State) :
    lostSplit e s = queueNotices .splitAgain [{ e with attempts := 0, second := true }] s := by
  simp only [lostSplit, hn, hsecond, Bool.false_eq_true, if_false]

theorem lostSplit_written {e : QEntry} {pre : Nat} {rs : List SlabRecord} (hn : e.notice = .split pre rs)
    (hsecond : e.second = true) (s : State) : lostSplit e s = ownSplit pre rs s := by
  simp only [lostSplit, hn, hsecond, if_true]

/-- R23: an entry joins the queue that its own loss has shortened. -/
theorem withEntry_headGone (x : QEntry) (rest : List QEntry) (s : State) :
    withEntry x (headGone rest s).line = { (headGone rest s).line with queue := rest ++ [x], access := .waitQuiet } := by
  simp only [withEntry, headGone]
  by_cases h : rest = [] <;> simp [h]

/-- R21, R22: the parent's fragment, with more of them to come. -/
theorem ownSplit_parent {pre : Nat} {r v : SlabRecord} {s : State} (hv : s.slab r.id = some v)
    (hpre : v.version = pre) (hloaded : v.state = .loaded) (hholder : v.holder = some s.station) (hr : r.state = .cut)
    (hleft : 2 ≤ s.cut.splitLeft) : ownSplit pre [r] s = { s with
      stock := { s.stock with table := s.stock.table.map fun x => if x.slab.id = r.id then ⟨r, none⟩ else x }
      cut := { s.cut with splitLeft := s.cut.splitLeft - 1 }
      plan := { s.plan with plan := none } } := by
  have happlied : fragmentApplied pre [r] s = { s with
      stock := { s.stock with table := s.stock.table.map fun x => if x.slab.id = r.id then ⟨r, none⟩ else x }
      plan := { s.plan with plan := none } } := by
    have hrecord : applySplit s.station pre [r] s = applySplitRecord s.station pre s r := rfl
    rw [fragmentApplied, hrecord, applySplitRecord_parent pre r v s hr hv hpre hloaded hholder, dropPlan,
      if_pos (by simp [hr])]
  rw [ownSplit_eq, happlied]
  exact if_neg fun h => absurd (show s.cut.splitLeft - 1 = 0 from h.1) (by omega)

/-- The obligation's own naming of the record a lost notice bears. -/
theorem holdsExpiry_lost {e : QEntry} {pre : Nat} {r : SlabRecord}
    (h : (∃ why, e.notice = .free why pre r) ∨ e.notice = .load pre r) (own : Nat) :
    holdsExpiry r.id e = true ∧ lostDetail own e.notice = r.id.seq ∧ ∀ pre rs, e.notice ≠ .split pre rs := by
  obtain ⟨why, h⟩ | h := h <;> simp [holdsExpiry, lostDetail, h]

/-- Settles O51. -/
theorem echoDiffersOrLoses : Obligations.EchoDiffers := by
  unfold Obligations.EchoDiffers
  intro s
  refine ⟨fun e rest ha hq => ⟨fun hfew => ?_, ?_⟩,
    fun e rest pre r v ha hq h8 hw hx hn hheld hv => ?_, fun slots ha => ?_⟩
  · obtain ⟨hlow, hhigh⟩ := deferralSlots_range s.freeCount e.attempts
    refine ⟨deferralSlots s.freeCount e.attempts, hlow, hhigh, ?_⟩
    rw [exec_echoMismatch ha hq, if_neg (Nat.not_le.mpr hfew)]
    rfl
  · intro h8 hw hx detail u
    have hdetail : lostDetail s.station e.notice = detail := by
      simp only [detail]
      cases e.notice <;> rfl
    have hu : lostState e rest s = u := by rw [lostState, hdetail]; rfl
    have hstate := lostState_eq e rest s
    have hexec : exec .echoMismatch s = .next (lostSplit e (lostState e rest s)) := by
      rw [exec_lost ha hq h8 hw, releaseExpiry_none (by rw [hstate]; exact hx)]
    rw [hexec, ← hu]
    refine ⟨fun hother => by rw [lostSplit_other hother], fun pre rs hn hsecond hlisten hroom => ?_,
      fun pre rs hn hsecond hcut hleft => ?_, fun pre r v hn hsecond hv hpre hloaded hholder hr _ hleft => ?_⟩
    · have hline : (lostState e rest s).line = (headGone rest s).line := by rw [hstate]
      rw [lostSplit_again hn hsecond, queueNotices, if_neg (by rw [hstate]; simp [raise, headGone, hlisten]),
        putNotices_open _ _ _ (by rw [hline]; exact hroom), hline, withEntry_headGone]
    · obtain ⟨hempty, hheld, hplan⟩ := ownSplit_last (pre := pre) (rs := rs) (s := lostState e rest s)
        (by rw [hstate]; exact hcut) (by rw [hstate]; exact hleft)
      rw [lostSplit_written hn hsecond]
      refine ⟨_, rfl, hempty, hheld, hplan, (ownSplit_leaves ..).faults .lineLost (by rw [hstate]; rfl), ?_, ?_⟩
      · rw [(by simp : (ownSplit pre rs (lostState e rest s)).water = (lostState e rest s).water), hstate]
        rfl
      · rw [ownSplit_cost, hstate]
        rfl
    · have hcutState : (lostState e rest s).cut = s.cut := by rw [hstate]; rfl
      rw [lostSplit_written hn hsecond, ownSplit_parent (s := lostState e rest s) (by rw [hstate]; exact hv) hpre hloaded
        (by rw [hstate]; exact hholder) hr (by rw [hcutState]; exact hleft)]
      rw [hstate]
      rfl
  · intro u
    obtain ⟨hholds, hdetail, hother⟩ := holdsExpiry_lost hn s.station
    have hstate := lostState_eq e rest s
    have hu : u = { lostState e rest s with stock := { s.stock with heldExpiry := false } } := by
      simp only [u, lostState, hdetail]
      cases e.cmd <;> rfl
    obtain ⟨hnot, hlapse⟩ := releaseExpiry_held e r v (lostState e rest s) hholds (by rw [hstate]; exact hheld)
      (by rw [hstate]; exact hx) (by rw [hstate]; exact hv)
    have hstock : (lostState e rest s).stock = s.stock := by rw [hstate]; rfl
    have hline : (lostState e rest s).line = (headGone rest s).line := by rw [hstate]
    rw [exec_lost ha hq h8 hw, lostSplit_other hother, hu]
    refine ⟨fun hfree => ?_, fun hclaimed hholder hlisten hroom => ?_⟩
    · rw [hnot (by rw [hstate]; exact hfree), hstock]
    · rw [hlapse hclaimed (by rw [hstate]; exact hholder) (by rw [hstate]; exact hlisten)
        (by rw [hline]; exact hroom), hstock, ← slab_id hv]
      rfl
  · refine congrArg Host.Outcome.next (?_ : deferralEnds s = _)
    simp only [deferralEnds, ha]

end Sys2Proof.Machine
end
section
/-! PROOF. The clean echo of a notice (R12, R26, R46, R58, R62, R109, R110, R143, R148, R165, R168). -/

namespace Sys2Proof.Machine

/-! ### The head leaves -/

/-- The station as its head has been sent, with nothing waiting behind the queue. -/
def sentState (rest : List QEntry) (s : State) : State :=
  { s with line := { s.line with
      queue := rest, access := if rest = [] then .idle else .waitQuiet, driving := []
      framesSent := min (s.line.framesSent + 1) 4294967295 } }

/-- R168: the station as the head has left and the sent frame has been counted. -/
def frameCounted (s : State) : State :=
  { leaveQueue s with line := { (leaveQueue s).line with framesSent := countUp (leaveQueue s).line.framesSent } }

section
variable {s : State} {e : QEntry} {rest : List QEntry} (ha : s.line.access = .sending) (hq : s.line.queue = e :: rest)
include ha hq

theorem exec_cleanEcho : exec .cleanEcho s = .next (applyOwn e (frameCounted s)) := by
  refine congrArg Host.Outcome.next (?_ : echoClean s = _)
  simp only [echoClean, ha, hq]
  rfl

theorem exec_cleanEcho_alone (hw : s.line.waiters = []) : exec .cleanEcho s = .next (applyOwn e (sentState rest s)) := by
  rw [exec_cleanEcho ha hq, frameCounted, leaveQueue_noWaiters e rest s hq hw]
  rfl

omit ha in
/-- R165: the oldest waiter puts its next notice at the tail. -/
theorem frameCounted_waiter {w : Waiter} {ws : List Waiter} {n : QEntry} {more : List QEntry}
    (hw : s.line.waiters = w :: ws) (hn : w.notices = n :: more) : frameCounted s = { s with line := { s.line with
      queue := rest ++ [n], waiters := if more = [] then ws else ws ++ [{ w with notices := more }]
      access := .waitQuiet, driving := [], framesSent := min (s.line.framesSent + 1) 4294967295 } } := by
  simp only [frameCounted, leaveQueue, dropHead, refill, hw, hn, hq, List.tail_cons]
  rw [if_neg (show ¬ rest ++ [n] = [] by simp)]
  rfl

end

theorem applyOwn_idle {s : State} {e : QEntry} (h : (∃ t, e.notice = .tally t) ∨ e.notice = .restart
    ∨ e.notice = .stockAsk) : applyOwn e s = s := by
  obtain ⟨t, h⟩ | h | h := h
  · simp only [applyOwn, h]
    exact if_pos (.inl rfl)
  · simp only [applyOwn, h]
    rw [restartStock, if_pos rfl, removeDraw, if_pos rfl]
  · simp only [applyOwn, h]
    exact if_pos (.inr (.inl rfl))

/-! ### The own CLAIM -/

/-- R12: the sender's state before its job is looked for. -/
def claimHeld (r : SlabRecord) (cmd : Option Cmd) (s : State) : State :=
  toCut .claimed
    { answer cmd .ok .none s with
      stock := { (answer cmd .ok .none s).stock with
        window := some ((answer cmd .ok .none s).cfg.claimWindow * 10), heldExpiry := false }
      cut := { (answer cmd .ok .none s).cut with held := some r.id } }

/-- R7, R12: an own CLAIM that answers the view wins the slab. -/
theorem applyOwn_claim {s : State} {e : QEntry} {pre : Nat} {r v : SlabRecord} (hn : e.notice = .claim pre r)
    (hv : s.slab r.id = some v) (hpre : v.version = pre) (hwins : precondition .claim s.station r v = true) :
    applyOwn e s = ensureJob (r.job.getD 0) (claimHeld r e.cmd (writeSlab r s)) := by
  simp only [applyOwn, hn]
  rw [applyChecked_holds _ _ _ _ _ _ _ hv hpre hwins, stockEffects]
  exact if_pos (decide_eq_true (by simp))

theorem ensureJob_known {s : State} {j : Nat} (h : s.jobEntry j ≠ none) : ensureJob j s = s := by
  obtain ⟨x, hx⟩ := Option.ne_none_iff_exists'.mp h
  rw [ensureJob, hx]

theorem ensureJob_unknown {s : State} {j : Nat} (h : s.jobEntry j = none) : ensureJob j s = createJob j .opened s := by
  rw [ensureJob, h]

/-! ### The own DRAW -/

/-- R109, R110: the own entry as an own DRAW sets it. -/
def ownEntry (s : State) (q : Nat) (l : Bool) (g : Nat) : DrawEntry :=
  ⟨s.station, q, if l = true then min g q else min q (s.water.capacity - othersSum s.water.draws s.station), l, none⟩

/-- R110, R113: the water view as an own DRAW leaves it before the fit rule. -/
def ownDrawn (s : State) (q : Nat) (l : Bool) (g : Nat) : State :=
  { s with water := { s.water with draws := putDraw (ownEntry s q l g) s.water.draws, refresh := some 100 } }

theorem applyDraw_own (s : State) (q : Nat) (l : Bool) (g : Nat) :
    applyDraw s.station q l g s = followOn s s.station false false (fit (ownDrawn s q l g)) := by
  have hentry : drawnEntry s.station s.water.capacity s.water.draws s.station q l g = ownEntry s q l g := by
    simp only [drawnEntry, ownEntry, openGrant, if_pos]
  have hself : decide (s.station ≠ s.station) = false := by simp
  simp only [applyDraw, hentry, hself, Bool.false_and, if_pos]
  rfl

theorem applyDraw_own_line (s : State) (q : Nat) (l : Bool) (g : Nat) : (applyDraw s.station q l g s).line = s.line := by
  rw [applyDraw_own, followOn_line, promptCheck_idle (.inl rfl)]
  rfl

theorem applyDraw_own_draws (s : State) (q : Nat) (l : Bool) (g : Nat) :
    (applyDraw s.station q l g s).water.draws
      = fitTable s.water.capacity (putDraw (ownEntry s q l g) s.water.draws)
    ∧ (applyDraw s.station q l g s).water.refresh = some 100 ∧ (applyDraw s.station q l g s).water.fresh = s.water.fresh := by
  rw [applyDraw_own, followOn_water]
  exact ⟨rfl, rfl, rfl⟩

/-- R110: an own locking DRAW holds its grant. -/
theorem applyDraw_own_locked (s : State) (q g : Nat) :
    (applyDraw s.station q true g s).ownDraw = ⟨s.station, q, min g q, true, none⟩ := by
  have hfind : findDraw (putDraw (ownEntry s q true g) s.water.draws) s.station = some (ownEntry s q true g) :=
    findDraw_putDraw (ownEntry s q true g) s.water.draws
  have hstation : (applyDraw s.station q true g s).station = s.station := by simp
  rw [State.ownDraw, hstation, (applyDraw_own_draws s q true g).1, findDraw_fitTable_locked _ hfind rfl]
  rfl

/-! ### The step granted -/

theorem nextPending_of_first {p : Plan} {k : Nat} {st : PlanStep} (hk : p.steps[k]? = some st)
    (hst : st.status = .pending) (hfirst : ∀ i x, i < k → p.steps[i]? = some x → x.status ≠ .pending) :
    nextPending p = some (k + 1) := by
  obtain ⟨hlt, hget⟩ := List.getElem?_eq_some_iff.mp hk
  have hidx : p.steps.findIdx? (fun x => decide (x.status = .pending)) = some k := by
    rw [List.findIdx?_eq_some_iff_getElem]
    refine ⟨hlt, by simp [hget, hst], fun j hj => ?_⟩
    simpa using hfirst j _ hj (List.getElem?_eq_getElem (by omega))
  rw [nextPending, hidx]
  rfl

/-- R58: the segment that opens on a plan, before the CUT-ASK is answered. -/
def segmentOpened (p : Plan) (k : Nat) (s : State) : State :=
  toCut .cutting { s with
    cut := { s.cut with segment := some (startSegment s p k) }, plan := { s.plan with plan := some p } }

theorem segmentOpened_cut (p : Plan) (k : Nat) (s : State) : (segmentOpened p k s).cut
      = { s.cut with state := .cutting, segment := some (startSegment s p k), waiting := false }
    ∧ (segmentOpened p k s).plan.plan = some p := by
  simp [segmentOpened, toCut, markStands, planStands]

/-- R58: the locking DRAW grants the next step. -/
theorem grantCut_planned {s : State} {p : Plan} {k : Nat} (c : Option Cmd) (hplan : s.plan.plan = some p)
    (hnext : nextPending p = some k) (hcut : s.cut.state = .planned) :
    grantCut c s = answer c .ok (match cutGrantOf (grantStep k p) (startSegment s (grantStep k p) k) with
      | some g => .cut g
      | none => .none) (segmentOpened (grantStep k p) k s) := by
  simp only [grantCut, hplan, hnext, hcut, if_true]
  rfl

section
variable {p : Plan} {k : Nat} {st : PlanStep} (h : p.steps[k]? = some st)
include h

theorem grantStep_at : stepAt (grantStep (k + 1) p) (k + 1) = some { st with status := .inProgress } := by
  obtain ⟨hlt, -⟩ := List.getElem?_eq_some_iff.mp h
  rw [grantStep_succ h]
  exact stepAt_succ (p := { p with steps := p.steps.set k { st with status := .inProgress }
                                   regions := _ }) (by simp [hlt])

/-- R46: a region keeps its number as its status changes. -/
theorem findRegion_grantStep {r : Region} (hr : findRegion p.regions st.region = some r) :
    findRegion (grantStep (k + 1) p).regions st.region = some { r with status := .inCut } := by
  have hnumber : r.number = st.region := by simpa using List.find?_some hr
  rw [grantStep_succ h]
  simp only [findRegion, List.find?_map] at hr ⊢
  have hsame : ((fun x : Region => decide (x.number = st.region))
      ∘ fun x => if x.number = st.region then { x with status := .inCut } else x)
      = fun x => decide (x.number = st.region) := by
    funext x
    simp only [Function.comp_apply]
    split <;> rfl
  rw [hsame, hr, Option.map_some, if_pos hnumber]

end

theorem answer_mem {c : Option Cmd} {cmd : Cmd} (hc : c = some cmd) (st : Status) (b : ReplyBody) (s : State) :
    PortFrame.reply ⟨replyType (cmdCode cmd), st, b⟩ ∈ (answer c st b s).port.out.map (·.frame) := by
  subst hc
  exact reply_mem ..

theorem claimHeld_fields (r : SlabRecord) (cmd : Option Cmd) (s : State) :
    (claimHeld r cmd s).cost = s.cost ∧ (claimHeld r cmd s).boot = s.boot ∧ (claimHeld r cmd s).water = s.water
      ∧ (claimHeld r cmd s).line = s.line ∧ (claimHeld r cmd s).port = (answer cmd .ok .none s).port := by
  cases cmd <;> exact ⟨rfl, rfl, rfl, rfl, rfl⟩

theorem raise_same {s t : State} (k : FaultKind) (d : Nat) (hboot : s.boot = t.boot) (hport : s.port = t.port) :
    (raise k d s).port = (raise k d t).port ∧ (raise k d s).boot = (raise k d t).boot := by
  simp only [raise, hboot, hport, and_self]

theorem withJobs_others (s : State) (jobs : List JobEntry) : (withJobs s jobs).cost = { s.cost with jobs := jobs }
    ∧ (withJobs s jobs).port = s.port ∧ (withJobs s jobs).boot = s.boot := ⟨rfl, rfl, rfl⟩

/-- Settles O49. -/
theorem cleanEcho : Obligations.CleanEcho := by
  unfold Obligations.CleanEcho
  intro s e rest ha hq sent
  refine ⟨⟨_, exec_cleanEcho ha hq, ?_, ?_⟩, fun w ws n more hw hn htally => ?_, fun hw => ?_⟩
  · rw [(by simp : (applyOwn e (frameCounted s)).line.framesSent = (frameCounted s).line.framesSent)]
    simp [frameCounted, countUp, sent]
  · rw [(by simp : (applyOwn e (frameCounted s)).line.driving = (frameCounted s).line.driving)]
    simp [frameCounted, leaveQueue]
  · rw [exec_cleanEcho ha hq, applyOwn_idle (.inl htally), frameCounted_waiter hq hw hn]
  · rw [exec_cleanEcho_alone ha hq hw]
    intro u
    refine ⟨fun hidle => congrArg Host.Outcome.next (applyOwn_idle hidle), fun pre r v hn hv hpre hwins hr => ?_,
      fun q g p k st hn hpurpose hcut hplan hk hst hfirst => ?_, fun q l g hn hpurpose => ?_⟩
    · intro j answered blank shut
      have happly : applyOwn e (sentState rest s) = ensureJob j (claimHeld r e.cmd (writeSlab r (sentState rest s))) :=
        applyOwn_claim hn hv hpre ((precondition_claim_iff ..).mpr hwins)
      obtain ⟨hcost, hboot, hwater, hline, hport⟩ := claimHeld_fields r e.cmd (writeSlab r (sentState rest s))
      have hanswered : (answer e.cmd .ok .none (writeSlab r (sentState rest s))).port = answered.port := by
        simp only [answered]
        cases e.cmd <;> rfl
      rw [happly]
      generalize hheldState : claimHeld r e.cmd (writeSlab r (sentState rest s)) = held at *
      have hjobs : held.cost.jobs = s.cost.jobs := by rw [hcost]; rfl
      have hentry : held.jobEntry j = s.jobEntry j := by rw [State.jobEntry, hjobs]; rfl
      have hboot' : held.boot = s.boot := hboot.trans rfl
      have hport' : held.port = answered.port := hport.trans hanswered
      have hanswerBoot : answered.boot = s.boot := by simp [answered]
      refine ⟨_, rfl, ?_, ?_, ?_, ?_, ?_, ?_, ?_, fun hknown => ?_, fun hnone => ⟨fun hroom => ?_, fun hfull hshut => ?_,
        fun hfull hshut => ?_⟩⟩
      · rw [(by simp : (ensureJob j held).cut = held.cut), ← hheldState]
        rfl
      · rw [(by simp : (ensureJob j held).cut = held.cut), ← hheldState]
        rfl
      · rw [(by simp : (ensureJob j held).stock = held.stock), ← hheldState]
        have hwatch : watchFor (sentState rest s) r = some ⟨s.cfg.claimWindow * 10 + 600, r.version⟩ := if_pos hr
        have hstock : (claimHeld r e.cmd (writeSlab r (sentState rest s))).stock.table
            = (writeSlab r (sentState rest s)).stock.table := by cases e.cmd <;> rfl
        rw [hstock, writeSlab, hwatch]
        rfl
      · rw [(by simp : (ensureJob j held).stock = held.stock), ← hheldState]
        cases e.cmd <;> rfl
      · rw [(by simp : (ensureJob j held).stock = held.stock), ← hheldState]
        rfl
      · rw [(by simp : (ensureJob j held).line = held.line), hline]
        rfl
      · rw [(by simp : (ensureJob j held).water = held.water), hwater]
        rfl
      · rw [ensureJob_known (by rw [hentry]; exact hknown)]
        exact ⟨hcost, hport', hboot'⟩
      · rw [ensureJob_unknown (hentry.trans hnone), createJob_room j .opened (by rw [hjobs]; exact hroom)]
        refine ⟨?_, hport', hboot'⟩
        rw [(withJobs_others ..).1, hcost, hboot']
        rfl
      · rw [ensureJob_unknown (hentry.trans hnone), createJob_evicts j .opened (by rw [hjobs]; exact hfull)
          (by rw [hjobs]; exact hshut)]
        refine ⟨?_, hport', hboot'⟩
        rw [(withJobs_others ..).1, hcost, hboot']
        rfl
      · rw [ensureJob_unknown (hentry.trans hnone), createJob_full j .opened (by rw [hjobs]; exact hfull)
          (by rw [hjobs]; exact hshut)]
        refine ⟨?_, raise_same .jobFull j (hboot'.trans hanswerBoot.symm) hport'⟩
        rw [(by simp : (raise .jobFull j held).cost = held.cost), hcost]
        rfl
    · generalize hdrawn : applyDraw s.station q true g (sentState rest s) = drawn
      have happly : applyOwn e (sentState rest s) = grantCut e.cmd drawn := by
        simp only [applyOwn, hn, answerDraw, if_pos hpurpose, ← hdrawn]
        rfl
      have hown : drawn.ownDraw = ⟨s.station, q, min g q, true, none⟩ := by
        rw [← hdrawn]
        exact applyDraw_own_locked (sentState rest s) q g
      have hgrant : drawn.ownGrant = min g q := congrArg DrawEntry.granted hown
      obtain ⟨-, hrefresh, hfresh⟩ := applyDraw_own_draws (sentState rest s) q true g
      have hline : drawn.line = (sentState rest s).line := by
        rw [← hdrawn]
        exact applyDraw_own_line (sentState rest s) q true g
      have hplan' : drawn.plan.plan = some p := by rw [← hdrawn]; simpa [sentState] using hplan
      have hcut' : drawn.cut.state = .planned := by rw [← hdrawn]; simpa [sentState] using hcut
      have hseg : startSegment drawn (grantStep (k + 1) p) (k + 1)
          = { step := k + 1, doneBefore := st.doneLength, grant := min g q, fresh := s.water.fresh
              seating := s.cut.blade.seating
              feed := effectiveFeed s.bladeType s.cfg.feedFloor s.stone.1 s.stone.2 (min g q) s.cut.blade.seating } := by
        have hdone : stepDone (grantStep (k + 1) p) (k + 1) = st.doneLength := by
          rw [stepDone, grantStep_at hk]
        have hstone : drawn.stone = s.stone := by
          rw [← hdrawn, State.stone, State.heldSlab]
          simp [sentState]
          rfl
        have hblade : drawn.cut.blade = s.cut.blade := by rw [← hdrawn]; simp [sentState]
        have hcfg : drawn.cfg = s.cfg := by rw [← hdrawn]; simp; rfl
        have htype : drawn.bladeType = s.bladeType := by rw [State.bladeType, hcfg, hblade]; rfl
        have hfresh' : drawn.water.fresh = s.water.fresh := by rw [← hdrawn]; exact hfresh
        simp only [startSegment, hdone, hgrant, hfresh', hblade, hstone, hcfg, htype]
      refine ⟨_, rfl, ?_⟩
      rw [happly, (by simp : (grantCut e.cmd drawn).ownDraw = drawn.ownDraw),
        (by simp : (grantCut e.cmd drawn).water = drawn.water),
        (by simp : (grantCut e.cmd drawn).line = drawn.line),
        (by simp : (grantCut e.cmd drawn).stock = drawn.stock),
        (by simp : (grantCut e.cmd drawn).cost = drawn.cost),
        grantCut_planned e.cmd hplan' (nextPending_of_first hk hst hfirst) hcut']
      obtain ⟨hcutOpen, hplanOpen⟩ := segmentOpened_cut (grantStep (k + 1) p) (k + 1) drawn
      have hanswerCut : ∀ b, (answer e.cmd .ok b (segmentOpened (grantStep (k + 1) p) (k + 1) drawn)).cut
          = (segmentOpened (grantStep (k + 1) p) (k + 1) drawn).cut := fun b => by simp
      have hanswerPlan : ∀ b, (answer e.cmd .ok b (segmentOpened (grantStep (k + 1) p) (k + 1) drawn)).plan
          = (segmentOpened (grantStep (k + 1) p) (k + 1) drawn).plan := fun b => by simp
      refine ⟨by rw [hanswerCut, hcutOpen], by rw [hanswerCut, hcutOpen], ?_, hown, ?_, fun c r hc hr => ?_,
        by rw [← hdrawn]; exact hrefresh, by rw [hline]; rfl, by rw [← hdrawn]; simp [sentState],
        by rw [← hdrawn]; simp [sentState]⟩
      · rw [hanswerPlan, hplanOpen, grantStep_succ hk]
      · rw [hanswerCut, hcutOpen, hseg]
      · have hcutGrant := cutGrantOf_step (seg := startSegment drawn (grantStep (k + 1) p) (k + 1)) (grantStep_at hk)
          (findRegion_grantStep hk hr) (by rw [hseg])
        rw [hcutGrant, hseg]
        exact answer_mem hc ..
    · have happly : applyOwn e (sentState rest s)
          = answer e.cmd .ok .none (applyDraw s.station q l g (sentState rest s)) := by
        simp only [applyOwn, hn, answerDraw, if_neg hpurpose]
        rfl
      obtain ⟨hdraws, hrefresh, -⟩ := applyDraw_own_draws (sentState rest s) q l g
      refine ⟨_, rfl, ?_⟩
      rw [happly]
      have hwater : (answer e.cmd .ok .none (applyDraw s.station q l g (sentState rest s))).water
          = (applyDraw s.station q l g (sentState rest s)).water := by simp
      have hline : (answer e.cmd .ok .none (applyDraw s.station q l g (sentState rest s))).line
          = (applyDraw s.station q l g (sentState rest s)).line := by simp
      rw [hwater, hline]
      exact ⟨hdraws, hrefresh, congrArg Line.queue (applyDraw_own_line (sentState rest s) q l g), by simp [sentState],
        by simp [sentState], by simp [sentState], fun c hc => answer_mem hc ..⟩

end Sys2Proof.Machine
end
section
/-! PROOF. The station's own notices applied at their clean echo (R5, R10, R15 to R18, R20 to R22, R24, R25, R27, R28, R124,
R136, R137, R143, R149 to R151, R168). -/

namespace Sys2Proof.Machine

/-! ### Records of the sender -/

theorem watchFor_not_claimed {s : State} {r : SlabRecord} (h : r.state ≠ .claimed) : watchFor s r = none := if_neg h

/-- R4: an entry takes a record that is not CLAIMED. -/
theorem writeSlab_eq {s : State} {r : SlabRecord} (h : r.state ≠ .claimed) : writeSlab r s = { s with
    stock := { s.stock with table := s.stock.table.map fun x => if x.slab.id = r.id then ⟨r, none⟩ else x } } := by
  rw [writeSlab, watchFor_not_claimed h]
  rfl

section
variable {s : State} {r : SlabRecord}

theorem findSlab_append_self {t : List StockEntry} (h : findSlab t r.id = none) (w : Option Watch) :
    findSlab (t ++ [⟨r, w⟩]) r.id = some ⟨r, w⟩ := by
  rw [findSlab, List.find?_append]
  rw [findSlab] at h
  simp [h]

theorem findSlab_eraseP {t : List StockEntry} {id : SlabId} (h : findSlab t id = none) (p : StockEntry → Bool) :
    findSlab (t.eraseP p) id = none :=
  List.find?_eq_none.mpr fun x hx => List.find?_eq_none.mp h x (List.mem_of_mem_eraseP hx)

/-- R10: a new FREE slab that the station does not hold is recorded, or STOCK_FULL is raised. -/
theorem applyPlain_new (hfree : r.state = .free) (hheld : s.cut.held ≠ some r.id) (hnone : s.slab r.id = none) :
    applyPlain r s = recordNew r s := by
  have hadopt : adoptable s r = r := by simp [adoptable, heldBy, showsHeld, hfree]
  have hstays : endsHold s r = false := by simp [endsHold, State.cutHolds, hheld]
  rw [applyPlain, hnone]
  exact adopt_unknown hadopt hstays hnone

theorem applyYardIn_recorded {cmd : Option Cmd} {t : State} (happly : applyPlain r s = t) {v : SlabRecord}
    (hv : t.slab r.id = some v) : applyYardIn r cmd s = answer cmd .ok (.slabId r.id) t := by
  simp only [applyYardIn, happly, hv]

theorem applyYardIn_refused {cmd : Option Cmd} {t : State} (happly : applyPlain r s = t) (hv : t.slab r.id = none) :
    applyYardIn r cmd s = answer cmd .full .none t := by
  simp only [applyYardIn, happly, hv]

end

/-- R10: the three outcomes of an own YARD-IN. -/
theorem applyYardIn_new {s : State} {r : SlabRecord} (cmd : Option Cmd) (hfree : r.state = .free)
    (hheld : s.cut.held ≠ some r.id) (hnone : s.slab r.id = none) :
    (s.stock.table.length < 200 → applyYardIn r cmd s = answer cmd .ok (.slabId r.id)
      { s with stock := { s.stock with table := s.stock.table ++ [⟨r, none⟩] } })
    ∧ (200 ≤ s.stock.table.length → s.stock.table.any (fun x => isHistory x.slab) = true →
      applyYardIn r cmd s = answer cmd .ok (.slabId r.id) { s with stock := { s.stock with
        table := s.stock.table.eraseP (fun x => isHistory x.slab) ++ [⟨r, none⟩] } })
    ∧ (200 ≤ s.stock.table.length → s.stock.table.any (fun x => isHistory x.slab) = false →
      applyYardIn r cmd s = answer cmd .full .none (raise .stockFull r.id.seq s)) := by
  have hnew := applyPlain_new hfree hheld hnone
  have hwatch : watchFor s r = none := watchFor_not_claimed (by rw [hfree]; decide)
  have hfind : findSlab s.stock.table r.id = none := by simpa [State.slab] using hnone
  refine ⟨fun hroom => ?_, fun hfull hfinal => ?_, fun hfull hfinal => ?_⟩
  · refine applyYardIn_recorded (v := r) (hnew.trans ((recordNew_room r hroom).trans (by rw [hwatch]))) ?_
    rw [State.slab, findSlab_append_self hfind]
    rfl
  · refine applyYardIn_recorded (v := r) (hnew.trans ((recordNew_evicts r hfull hfinal).trans (by rw [hwatch]))) ?_
    rw [State.slab, findSlab_append_self (findSlab_eraseP hfind _)]
    rfl
  · refine applyYardIn_refused (hnew.trans (recordNew_full r hfull hfinal)) ?_
    rw [State.slab, (by simp : (raise .stockFull r.id.seq s).stock = s.stock)]
    exact hnone

/-! ### Notices with a precondition, at their sender -/

/-- The effects of the kinds that act at the sender. -/
theorem own_effects (r v : SlabRecord) (cmd : Option Cmd) (s : State) :
    stockEffects .lapse s.station r v cmd s = toEmpty (stopWindow s)
    ∧ stockEffects (.free .released) s.station r v cmd s = answer cmd .ok .none (toEmpty (stopWindow s))
    ∧ stockEffects (.free .unloaded) s.station r v cmd s = answer cmd .ok .none (toEmpty s)
    ∧ stockEffects .load s.station r v cmd s = answer cmd .ok .none (toCut .loaded (stopWindow s)) := by
  have hself : decide (s.station = s.station) = true := decide_eq_true rfl
  exact ⟨if_pos hself, if_pos hself, if_pos hself, if_pos hself⟩

section
variable {s : State} {k : StockKind} {pre : Nat} {r v : SlabRecord} {cmd : Option Cmd} (hv : s.slab r.id = some v)
    (hpre : v.version = pre) (hkind : precondition k s.station r v = true)
include hv hpre hkind

theorem applyChecked_own : applyChecked k s.station pre r cmd s
    = stockEffects k (writeSlab r s).station r v cmd (writeSlab r s) := by
  rw [applyChecked_holds k s.station pre r v cmd s hv hpre hkind]
  rfl

end

theorem toCut_loaded_eq (s : State) : toCut .loaded s = { s with
    cut := { s.cut with state := .loaded, waiting := false, segment := none }
    plan := { staging := none, plan := none } } := by
  simp [toCut, markStands, planStands]

/-! ### Jobs -/

theorem mapJob_setState (jobs : List JobEntry) (j : Nat) (st : JobState) (now : Nat) :
    mapJob j (setJobState st now) jobs = jobs.map fun y =>
      if y.job = j ∧ y.state ≠ st then { y with state := st, lastChange := now } else y := by
  refine List.map_congr_left fun y _ => ?_
  by_cases hj : y.job = j
  · by_cases hst : y.state = st <;> simp [setJobState, hj, hst]
  · simp [hj]

theorem findJob_setState {jobs : List JobEntry} {j : Nat} {x : JobEntry} (h : findJob jobs j = some x) (st : JobState)
    (now : Nat) : (findJob (mapJob j (setJobState st now) jobs) j).isSome = true := by
  have hmem := List.mem_of_find?_eq_some h
  have hjob : x.job = j := by simpa using List.find?_some h
  rw [findJob, List.find?_isSome]
  refine ⟨setJobState st now x, List.mem_map.mpr ⟨x, hmem, if_pos hjob⟩, ?_⟩
  unfold setJobState
  split <;> exact decide_eq_true hjob

section
variable {s : State} {j : Nat} (cmd : Option Cmd)

theorem applyJobOpen_known (h : ((applyJobState j .opened s).jobEntry j).isSome = true) :
    applyJobOpen j cmd s = answer cmd .ok .none (applyJobState j .opened s) := by
  obtain ⟨x, hx⟩ := Option.isSome_iff_exists.mp h
  simp only [applyJobOpen, hx]

theorem applyJobOpen_unknown (h : (applyJobState j .opened s).jobEntry j = none) :
    applyJobOpen j cmd s = answer cmd .full .none (applyJobState j .opened s) := by
  simp only [applyJobOpen, h]

theorem findJob_append_self (jobs : List JobEntry) (st : JobState) (now : Nat) :
    (findJob (jobs ++ [newJob j st now]) j).isSome = true := by
  rw [findJob, List.find?_isSome]
  exact ⟨newJob j st now, by simp, decide_eq_true rfl⟩

end

/-! ### The records of a fragment -/

theorem newer_self (a : Nat) : newer a a = false := by
  refine Bool.eq_false_iff.mpr fun h => ?_
  have := (newer_iff a a).mp h
  omega

/-- R28: a record that is not newer than the view is ignored. -/
theorem applyStockState_known {rs : List SlabRecord} {s : State}
    (h : ∀ r ∈ rs, ∃ v, s.slab r.id = some v ∧ v.version = r.version) : applyStockState rs s = s := by
  induction rs with
  | nil => rfl
  | cons r rs ih =>
    obtain ⟨v, hv, hversion⟩ := h r (by simp)
    have hone : applyPlain r s = s := by
      rw [applyPlain, hv]
      exact if_neg (by rw [hversion, newer_self]; decide)
    rw [applyStockState, List.foldl_cons, hone]
    exact ih fun r' hr' => h r' (List.mem_cons_of_mem _ hr')

/-- R5: a full table with nothing final takes no child. -/
theorem foldl_placed_full {t : List StockEntry} (hfull : 200 ≤ t.length)
    (hfinal : t.any (fun x => isHistory x.slab) = false) (rs : List SlabRecord) : rs.foldl placed t = t := by
  have hone : ∀ r, placed t r = t := fun r => by
    rw [placed, if_neg (Nat.not_lt.mpr hfull), if_neg (ne_true_of_eq_false hfinal)]
  induction rs with
  | nil => rfl
  | cons r rs ih => rw [List.foldl_cons, hone, ih]

theorem applySplit_full_raises {own pre : Nat} {rs : List SlabRecord} {s : State} (hsome : rs ≠ [])
    (h : ∀ r ∈ rs, r.state = .free ∧ s.slab r.id = none) (hcut : s.cut.state = .splitting)
    (hfull : 200 ≤ s.stock.table.length) (hfinal : s.stock.table.any (fun x => isHistory x.slab) = false) :
    (applySplit own pre rs s).boot.faults.stockFull = true := by
  cases rs with
  | nil => exact absurd rfl hsome
  | cons r rs =>
    obtain ⟨hfree, hnone⟩ := h r (by simp)
    have hrecord : applySplitRecord own pre s r = applyPlain r s := if_neg (by rw [hfree]; decide)
    have hraised := (applyPlain_child r s hfree hnone hcut).2.2 hfull hfinal
    have hstep : applySplit own pre (r :: rs) s = applySplit own pre rs (applyPlain r s) := by
      rw [applySplit, List.foldl_cons, hrecord]
      rfl
    rw [hstep]
    exact (applySplit_leaves own pre rs (applyPlain r s)).faults .stockFull hraised

theorem dropPlan_children {rs : List SlabRecord} (h : ∀ r ∈ rs, r.state = .free) (s : State) : dropPlan rs s = s := by
  refine if_neg ?_
  rw [List.any_eq_true]
  rintro ⟨r, hr, hcut⟩
  rw [h r hr] at hcut
  exact absurd hcut (by decide)

theorem ownSplit_others (pre : Nat) (rs : List SlabRecord) (s : State) :
    (ownSplit pre rs s).stock = (fragmentApplied pre rs s).stock ∧ (ownSplit pre rs s).boot = (fragmentApplied pre rs s).boot
      ∧ (ownSplit pre rs s).port = (fragmentApplied pre rs s).port
      ∧ (ownSplit pre rs s).line = (fragmentApplied pre rs s).line := by
  rw [ownSplit_eq]
  split <;> exact ⟨rfl, rfl, rfl, rfl⟩

theorem ownSplit_more_plan {pre : Nat} {rs : List SlabRecord} {s : State} (h : s.cut.state = .splitting)
    (hleft : 2 ≤ s.cut.splitLeft) : (ownSplit pre rs s).plan = (fragmentApplied pre rs s).plan := by
  rw [ownSplit_eq, fragmentApplied_cut h, if_neg (by omega)]

/-- R149 to R151: the job notices of a console, the job not known before. -/
theorem applyOwn_job_unknown {s : State} {e : QEntry} {j : Nat} {st : JobState} {refused : Status}
    (hi : (e.notice = .jobOpen j ∧ st = .opened ∧ refused = .full)
      ∨ (e.notice = .jobClose j ∧ st = .closed ∧ refused = .ok)) (hnone : s.jobEntry j = none) :
    ((createJob j st s).jobEntry j ≠ none → applyOwn e s = answer e.cmd .ok .none (createJob j st s))
    ∧ ((createJob j st s).jobEntry j = none → applyOwn e s = answer e.cmd refused .none (createJob j st s)) := by
  have hstate := applyJobState_unknown hnone st
  obtain ⟨hn, rfl, rfl⟩ | ⟨hn, rfl, rfl⟩ := hi
  · have happly : applyOwn e s = applyJobOpen j e.cmd s := by simp only [applyOwn, hn]
    rw [happly, ← hstate]
    exact ⟨fun h => applyJobOpen_known _ (Option.isSome_iff_ne_none.mpr h), fun h => applyJobOpen_unknown _ h⟩
  · have happly : applyOwn e s = answer e.cmd .ok .none (createJob j .closed s) := by
      simp only [applyOwn, hn, applyJobClose, hstate]
    exact ⟨fun _ => happly, fun _ => happly⟩

theorem applyOwn_job_known {s : State} {e : QEntry} {j : Nat} {st : JobState} {x : JobEntry} (hx : s.jobEntry j = some x)
    (hi : (e.notice = .jobOpen j ∧ st = .opened) ∨ (e.notice = .jobClose j ∧ st = .closed)) :
    applyOwn e s = answer e.cmd .ok .none (withJobs s (s.cost.jobs.map fun y =>
      if y.job = j ∧ y.state ≠ st then { y with state := st, lastChange := s.boot.shopTime } else y)) := by
  have hstate : applyJobState j st s = withJobs s (s.cost.jobs.map fun y =>
      if y.job = j ∧ y.state ≠ st then { y with state := st, lastChange := s.boot.shopTime } else y) := by
    rw [applyJobState, hx]
    exact congrArg (withJobs s) (mapJob_setState ..)
  have hsome : ((applyJobState j st s).jobEntry j).isSome = true := by
    rw [applyJobState, hx]
    exact findJob_setState hx st _
  rw [← hstate]
  obtain ⟨hn, rfl⟩ | ⟨hn, rfl⟩ := hi
  · simp only [applyOwn, hn, applyJobOpen_known e.cmd hsome]
  · simp only [applyOwn, hn, applyJobClose]

/-- R21: the stock table as the first record of a fragment, the parent's or none, leaves it. -/
def parentPlaced (t : List StockEntry) : List SlabRecord → List StockEntry
  | [] => t
  | r :: _ => t.map fun x => if x.slab.id = r.id then ⟨r, none⟩ else x

/-- R21, R22: what an own SPLIT fragment leaves, its records those of R21. -/
theorem ownSplit_fragment (pre : Nat) (first children : List SlabRecord) (s : State)
    (h1 : first = [] ∨ ∃ r v, first = [r] ∧ r.state = .cut ∧ s.slab r.id = some v ∧ v.version = pre
      ∧ v.state = .loaded ∧ v.holder = some s.station)
    (h2 : ∀ r ∈ children, r.state = .free ∧ s.slab r.id = none) (h3 : (children.map (·.id)).Nodup)
    (h4 : s.cut.state = .splitting) :
    (ownSplit pre (first ++ children) s).stock = { s.stock with
      table := children.foldl placed (parentPlaced s.stock.table first) }
    ∧ (2 ≤ s.cut.splitLeft → (ownSplit pre (first ++ children) s).cut = { s.cut with splitLeft := s.cut.splitLeft - 1 }
      ∧ (ownSplit pre (first ++ children) s).plan = if first = [] then s.plan else { s.plan with plan := none })
    ∧ (s.stock.table.length + children.length ≤ 200 →
      (ownSplit pre (first ++ children) s).boot = s.boot ∧ (ownSplit pre (first ++ children) s).port = s.port)
    ∧ (ownSplit pre (first ++ children) s).line = s.line := by
  obtain ⟨hown, hroom⟩ := applySplit_own pre first children s h1 h2 h3 h4
  have happly : applySplit s.station pre (first ++ children) s = { s with
      stock := { s.stock with table := children.foldl placed (parentPlaced s.stock.table first) }
      plan := (if first = [] then s.plan else { s.plan with plan := none })
      boot := (applySplit s.station pre (first ++ children) s).boot
      port := (applySplit s.station pre (first ++ children) s).port } := by
    refine hown.trans ?_
    obtain rfl | ⟨r, v, rfl, -⟩ := h1 <;> rfl
  have hdrop : ∀ t : State, (dropPlan (first ++ children) t).stock = t.stock ∧ (dropPlan (first ++ children) t).boot = t.boot
      ∧ (dropPlan (first ++ children) t).port = t.port ∧ (dropPlan (first ++ children) t).line = t.line := fun t => by simp
  obtain ⟨hstock, hboot, hport, hline⟩ := ownSplit_others pre (first ++ children) s
  obtain ⟨dstock, dboot, dport, dline⟩ := hdrop (applySplit s.station pre (first ++ children) s)
  rw [hstock, hboot, hport, hline]
  simp only [fragmentApplied, dstock, dboot, dport, dline]
  refine ⟨by rw [happly], fun hleft => ⟨ownSplit_more h4 hleft, ?_⟩, hroom, by rw [happly]⟩
  rw [ownSplit_more_plan h4 hleft, fragmentApplied]
  obtain rfl | ⟨r, v, rfl, hcut, -⟩ := h1
  · rw [List.nil_append, dropPlan_children fun r hr => (h2 r hr).1, if_pos rfl]
    rw [List.nil_append] at happly
    rw [happly]
    rfl
  · have hany : (([r] ++ children).any fun r => decide (r.state = .cut)) = true := by simp [hcut]
    rw [dropPlan, if_pos hany, happly]
    rfl

end Sys2Proof.Machine
end
section
/-! PROOF. CLEAN-ECHO of the other own notices (R5, R10, R15 to R18, R20 to R22, R24, R25, R27, R28, R124, R136, R137, R143,
R149 to R151, R168). -/

namespace Sys2Proof.Machine

section
variable {s : State} {e : QEntry}

/-- Which rule applies an own notice that carries a precondition. -/
theorem applyOwn_checked {k : StockKind} {pre : Nat} {r : SlabRecord}
    (h : (k = .lapse ∧ e.notice = .lapse pre r) ∨ (∃ why, k = .free why ∧ e.notice = .free why pre r)
      ∨ (k = .load ∧ e.notice = .load pre r) ∨ (k = .scrap ∧ e.notice = .scrap pre r)) :
    applyOwn e s = applyChecked k s.station pre r e.cmd s := by
  obtain ⟨rfl, h⟩ | ⟨why, rfl, h⟩ | ⟨rfl, h⟩ | ⟨rfl, h⟩ := h <;> simp only [applyOwn, h]

theorem applyOwn_split {pre : Nat} {rs : List SlabRecord} (h : e.notice = .split pre rs) :
    applyOwn e s = ownSplit pre rs s := by
  simp only [applyOwn, h]

end

/-- R7: the preconditions on the holder's own slab. -/
theorem precondition_own_claimed {n : Nat} (r : SlabRecord) {v : SlabRecord} (hstate : v.state = .claimed)
    (hholder : v.holder = some n) : precondition .lapse n r v = true ∧ precondition (.free .released) n r v = true
      ∧ precondition .load n r v = true := by
  simp [precondition, hstate, hholder]

theorem precondition_own_loaded {n : Nat} (r : SlabRecord) {v : SlabRecord} (hstate : v.state = .loaded)
    (hholder : v.holder = some n) : precondition (.free .unloaded) n r v = true := by
  simp [precondition, hstate, hholder]

/-- R136, R137: the plant unit and the water view as an own PLANT leaves them. -/
theorem applyOwn_plant {s : State} {e : QEntry} {c f : Nat} {st sl : Bool} (h : e.notice = .plant c f st sl) :
    (applyOwn e s).plant = { s.plant with announced := some ⟨c, st, sl⟩, announceTimer := some 100 }
    ∧ (applyOwn e s).water.capacity = min c s.cfg.maxCapacity ∧ (applyOwn e s).water.fresh = f
    ∧ (applyOwn e s).water.stop = st ∧ (applyOwn e s).water.stale = sl ∧ (applyOwn e s).water.plantHeard = some 350
    ∧ (applyOwn e s).water.lastPlant = s.station ∧ (applyOwn e s).stock = s.stock ∧ (applyOwn e s).cost = s.cost
    ∧ (applyOwn e s).plan = s.plan := by
  have happly : applyOwn e s = plantAnnounced c st sl (applyPlant s.station c f st sl s) := by simp only [applyOwn, h]
  have hwater : (applyOwn e s).water = (applyPlant s.station c f st sl s).water := by rw [happly]; rfl
  have hplant : (applyOwn e s).plant = { (applyPlant s.station c f st sl s).plant with
      announced := some ⟨c, st, sl⟩, announceTimer := some 100 } := by rw [happly]; rfl
  refine ⟨?_, ?_, ?_, ?_, ?_, ?_, ?_, by rw [happly]; simp, by rw [happly]; simp, by rw [happly]; simp⟩
  · rw [hplant, (by simp : (applyPlant s.station c f st sl s).plant = s.plant)]
  all_goals rw [hwater, applyPlant_water]

/-- R124, R125: an own WATER-OVERRIDE clears the stop and answers its command. -/
theorem applyOwn_override {s : State} {e : QEntry} (h : e.notice = .waterOverride) :
    (applyOwn e s).water.stop = false
    ∧ (∀ c, e.cmd = some c → (applyOwn e s).port.outstanding = none
      ∧ PortFrame.reply ⟨replyType (cmdCode c), .ok, .none⟩ ∈ (applyOwn e s).port.out.map (·.frame))
    ∧ (applyOwn e s).stock = s.stock ∧ (applyOwn e s).cost = s.cost ∧ (applyOwn e s).plan = s.plan
    ∧ (applyOwn e s).plant = s.plant := by
  have happly : applyOwn e s = answer e.cmd .ok .none (followOn s s.station false true (overrideState s)) := by
    simp only [applyOwn, h]
    rfl
  rw [happly]
  refine ⟨by simp [overrideState], fun c hc => ⟨?_, answer_mem hc ..⟩, by simp [overrideState], by simp [overrideState],
    by simp [overrideState], by simp [overrideState]⟩
  rw [hc]
  simp [answer]

/-- Settles O50. -/
theorem ownNoticesApplied : Obligations.OwnNoticesApplied := by
  unfold Obligations.OwnNoticesApplied
  intro s e rest ha hq hw
  rw [exec_cleanEcho_alone ha hq hw]
  intro u put emitted final place
  have hnext : ∀ {t : State}, applyOwn e (sentState rest s) = t →
      Host.Outcome.next (applyOwn e (sentState rest s)) = (.next t : Host.Outcome State Fault Refusal) := fun h => congrArg _ h
  refine ⟨fun r hn hfree hheld hnone => ?_, fun pre r v hv hpre hclaimed hholder => ⟨fun hn hr => ?_, fun hn hr => ?_,
      fun hn hr => ?_⟩, fun pre r v hv hpre hloaded hholder => ⟨fun hn hr => ?_, fun hn hr hcut hleft => ?_⟩,
    fun pre first children hn h1 h2 h3 h4 => ?_, fun pre rs hn hcut hleft => ?_, fun pre r v hv hpre hholder hn => ?_,
    fun j st x hx hi => hnext (applyOwn_job_known hx hi), fun j st refused hnone hi => ?_,
    fun pre r v hn hv hpre hclaimed hr => ⟨fun hholder => ?_, fun hholder => ?_⟩, fun rs hn hknown => ?_,
    fun c f st sl hn => ⟨_, rfl, applyOwn_plant hn⟩, fun hn => ⟨_, rfl, applyOwn_override hn⟩⟩
  · have happly : applyOwn e (sentState rest s) = applyYardIn r e.cmd (sentState rest s) := by simp only [applyOwn, hn]
    obtain ⟨hroom, hevicts, hfull⟩ := applyYardIn_new (s := sentState rest s) e.cmd hfree hheld hnone
    refine ⟨fun h => hnext (happly.trans (hroom h)), fun h hfinal => hnext (happly.trans (hevicts h hfinal)),
      fun h hfinal => hnext (happly.trans (hfull h ?_))⟩
    refine List.any_eq_false.mpr fun x hx => ?_
    obtain ⟨hcut, hscrapped⟩ := hfinal x hx
    simp [isHistory, hcut, hscrapped]
  · refine hnext ((applyOwn_checked (.inl ⟨rfl, hn⟩)).trans ?_)
    rw [applyChecked_own (by exact hv) hpre (by exact (precondition_own_claimed r hclaimed hholder).1), (own_effects ..).1,
      writeSlab_eq (by rw [hr]; decide)]
    rfl
  · refine hnext ((applyOwn_checked (.inr (.inl ⟨_, rfl, hn⟩))).trans ?_)
    rw [applyChecked_own (by exact hv) hpre (by exact (precondition_own_claimed r hclaimed hholder).2.1), (own_effects ..).2.1,
      writeSlab_eq (by rw [hr]; decide)]
    rfl
  · refine hnext ((applyOwn_checked (.inr (.inr (.inl ⟨rfl, hn⟩)))).trans ?_)
    rw [applyChecked_own (by exact hv) hpre (by exact (precondition_own_claimed r hclaimed hholder).2.2), (own_effects ..).2.2.2,
      writeSlab_eq (by rw [hr]; decide), toCut_loaded_eq]
    rfl
  · refine hnext ((applyOwn_checked (.inr (.inl ⟨_, rfl, hn⟩))).trans ?_)
    rw [applyChecked_own (by exact hv) hpre (by exact precondition_own_loaded r hloaded hholder), (own_effects ..).2.2.1,
      writeSlab_eq (by rw [hr]; decide)]
    rfl
  · exact hnext ((applyOwn_split hn).trans (ownSplit_parent (s := sentState rest s) hv hpre hloaded hholder hr hleft))
  · obtain ⟨hstock, hmore, hroom, hline⟩ := ownSplit_fragment pre first children (sentState rest s) h1 h2 h3 h4
    rw [applyOwn_split hn]
    refine ⟨_, rfl, ?_, hmore, hroom, fun hsome hfull hnone hfinal => ?_, hline, by simp [sentState],
      (ownSplit_cost ..).trans rfl⟩
    · rw [hstock]
      cases first <;> rfl
    · subst hnone
      rw [List.nil_append] at hstock ⊢
      refine ⟨by rw [hstock]; exact foldl_placed_full hfull hfinal children, ?_⟩
      have hraised := applySplit_full_raises (own := (sentState rest s).station) (pre := pre) (s := sentState rest s) hsome
        h2 h4 hfull hfinal
      rw [(ownSplit_others pre children (sentState rest s)).2.1, fragmentApplied,
        dropPlan_children fun r hr => (h2 r hr).1]
      exact hraised
  · obtain ⟨hempty, hheld, hplan⟩ := ownSplit_last (pre := pre) (rs := rs) (s := sentState rest s) hcut hleft
    rw [applyOwn_split hn]
    exact ⟨_, rfl, hempty, hheld, hplan, by simp [sentState], (ownSplit_cost ..).trans rfl⟩
  · obtain ⟨hn, hclaimed, hr⟩ | ⟨hn, hfree, hr⟩ := hn
    · refine hnext ((applyOwn_checked (.inr (.inl ⟨_, rfl, hn⟩))).trans ?_)
      rw [applyChecked_own (by exact hv) hpre (by simp [precondition, hclaimed]), writeSlab_eq (by rw [hr]; decide),
        stockEffects]
      simp only
      rw [if_neg (ne_true_of_eq_false (heldBy_eq_false (by exact hholder)))]
      rfl
    · refine hnext ((applyOwn_checked (.inr (.inr (.inr ⟨rfl, hn⟩)))).trans ?_)
      rw [applyChecked_own (by exact hv) hpre (by simp [precondition, hfree]), writeSlab_eq (by rw [hr]; decide)]
      rfl
  · intro blank shut
    obtain ⟨hsome, hnone'⟩ := applyOwn_job_unknown (s := sentState rest s) hi hnone
    refine ⟨fun hroom => ?_, fun hfull hshut => ?_, fun hfull hshut => ?_⟩
    · rw [createJob_room j st (by exact hroom)] at hsome
      exact hnext (hsome (Option.isSome_iff_ne_none.mp (findJob_append_self ..)))
    · rw [createJob_evicts j st (by exact hfull) (by exact hshut)] at hsome
      exact hnext (hsome (Option.isSome_iff_ne_none.mp (findJob_append_self ..)))
    · rw [createJob_full j st (by exact hfull) (by exact hshut)] at hnone'
      refine hnext (hnone' ?_)
      rw [State.jobEntry, (by simp : (raise .jobFull j (sentState rest s)).cost = (sentState rest s).cost)]
      exact hnone
  · refine hnext ((applyOwn_checked (.inr (.inl ⟨_, rfl, hn⟩))).trans ?_)
    rw [applyChecked_own (by exact hv) hpre (by simp [precondition, hclaimed]), writeSlab_eq (by rw [hr]; decide),
      stockEffects]
    simp only
    rw [if_neg (ne_true_of_eq_false (heldBy_eq_false (by exact hholder)))]
    rfl
  · refine hnext ((applyOwn_checked (.inr (.inl ⟨_, rfl, hn⟩))).trans ?_)
    rw [applyChecked_own (by exact hv) hpre (by simp [precondition, hclaimed]), writeSlab_eq (by rw [hr]; decide),
      stockEffects]
    simp only
    rw [if_pos (heldBy_claimed hclaimed (by exact hholder))]
    rfl
  · refine hnext ?_
    simp only [applyOwn, hn]
    exact applyStockState_known hknown

end Sys2Proof.Machine
end
section
/-! PROOF. The slab record and the notice payloads are read back from their bytes (R175, R177). -/

namespace Sys2Proof.Machine

/-! ### Fields -/

theorem byte_word {n : Nat} (h : n < 65536) : (byte n).toNat + 256 * (byte (n / 256)).toNat = n := by
  rw [byte_toNat, byte_toNat, w16_sum h]

theorem byte_long {n : Nat} (h : n < 4294967296) : (byte n).toNat + 256 * (byte (n / 256)).toNat
    + 65536 * (byte (n / 65536)).toNat + 16777216 * (byte (n / 16777216)).toNat = n := by
  simp only [byte_toNat, w32_sum h]

theorem isByte_iff (n : Nat) : isByte n = true ↔ n < 256 := decide_eq_true_iff

theorem isWord_iff (n : Nat) : isWord n = true ↔ n < 65536 := decide_eq_true_iff

theorem isLong_iff (n : Nat) : isLong n = true ↔ n < 4294967296 := decide_eq_true_iff

theorem slabId_wf_iff (id : SlabId) : id.wf = true ↔ id.origin < 256 ∧ id.epoch < 65536 ∧ id.seq < 65536 := by
  simp only [SlabId.wf, Bool.and_eq_true, isByte_iff, isWord_iff, and_assoc]

theorem defect_wf_iff (d : Defect) :
    d.wf = true ↔ d.x < 65536 ∧ d.y < 65536 ∧ d.length < 65536 ∧ d.width < 65536 := by
  simp only [Defect.wf, Bool.and_eq_true, isWord_iff, and_assoc]

/-- A slab id is read where its five bytes stand. -/
theorem slabIdAt_encode (front rest : List Byte) {id : SlabId} (h : id.wf = true) :
    slabIdAt (front ++ (encodeSlabId id ++ rest)) front.length = id := by
  obtain ⟨horigin, hepoch, hseq⟩ := (slabId_wf_iff id).mp h
  have hread : ∀ k, rd8 (front ++ (encodeSlabId id ++ rest)) (front.length + k) = rd8 (encodeSlabId id ++ rest) k :=
    fun k => rd8_append_right ..
  have h0 := hread 0
  rw [Nat.add_zero] at h0
  simp only [slabIdAt, rd16, Nat.add_assoc, h0, hread]
  have h1 : rd8 (encodeSlabId id ++ rest) 0 = id.origin := byte_toNat_of_lt horigin
  have h2 : rd8 (encodeSlabId id ++ rest) 1 + 256 * rd8 (encodeSlabId id ++ rest) (1 + 1) = id.epoch := byte_word hepoch
  have h3 : rd8 (encodeSlabId id ++ rest) 3 + 256 * rd8 (encodeSlabId id ++ rest) (3 + 1) = id.seq := byte_word hseq
  rw [h1, h2, h3]

theorem encodeDefect_length (d : Defect) : (encodeDefect d).length = 8 := rfl

theorem defectAt_encode (front rest : List Byte) {d : Defect} (h : d.wf = true) :
    defectAt (front ++ (encodeDefect d ++ rest)) front.length = d := by
  obtain ⟨hx, hy, hlength, hwidth⟩ := (defect_wf_iff d).mp h
  have hread : ∀ k, rd8 (front ++ (encodeDefect d ++ rest)) (front.length + k) = rd8 (encodeDefect d ++ rest) k :=
    fun k => rd8_append_right ..
  have h0 := hread 0
  rw [Nat.add_zero] at h0
  simp only [defectAt, rd16, Nat.add_assoc, h0, hread]
  have h1 : rd8 (encodeDefect d ++ rest) 0 + 256 * rd8 (encodeDefect d ++ rest) 1 = d.x := byte_word hx
  have h2 : rd8 (encodeDefect d ++ rest) 2 + 256 * rd8 (encodeDefect d ++ rest) (2 + 1) = d.y := byte_word hy
  have h3 : rd8 (encodeDefect d ++ rest) 4 + 256 * rd8 (encodeDefect d ++ rest) (4 + 1) = d.length := byte_word hlength
  have h4 : rd8 (encodeDefect d ++ rest) 6 + 256 * rd8 (encodeDefect d ++ rest) (6 + 1) = d.width := byte_word hwidth
  rw [h1, h2, h3, h4]

/-- R177: the defects of a record stand one behind the other. -/
theorem defectsAt_encode (ds : List Defect) (front rest : List Byte) (h : ds.all Defect.wf = true) :
    (List.range ds.length).map (fun k => defectAt (front ++ (ds.flatMap encodeDefect ++ rest)) (front.length + 8 * k))
      = ds := by
  induction ds generalizing front with
  | nil => rfl
  | cons d ds ih =>
    obtain ⟨hd, hds⟩ : d.wf = true ∧ ds.all Defect.wf = true := by simpa using h
    rw [List.length_cons, List.range_succ_eq_map, List.map_cons, List.map_map, List.flatMap_cons, List.append_assoc]
    have hhead := defectAt_encode front (ds.flatMap encodeDefect ++ rest) hd
    have htail := ih (front ++ encodeDefect d) hds
    rw [List.append_assoc, List.length_append, encodeDefect_length] at htail
    refine congrArg₂ List.cons hhead ((List.map_congr_left fun k _ => ?_).trans htail)
    rw [Function.comp_apply, show front.length + 8 * (k + 1) = front.length + 8 + 8 * k by omega]

theorem slabStateOf_code {st : SlabState} (h : st.wf = true) : slabStateOf (slabStateCode st) = st := by
  cases st with
  | undefined code =>
    simp only [SlabState.wf, Bool.and_eq_true, decide_eq_true_eq] at h
    obtain rfl | hlarge := h.2
    · rfl
    · obtain ⟨n, rfl⟩ := Nat.exists_eq_add_of_lt hlarge
      rw [slabStateCode, show 5 + n + 1 = n + 6 by omega]
      rfl
  | _ => rfl

theorem slabStateCode_lt {st : SlabState} (h : st.wf = true) : slabStateCode st < 256 := by
  cases st with
  | undefined code =>
    simp only [SlabState.wf, Bool.and_eq_true, isByte_iff] at h
    exact h.1
  | _ => decide

theorem reasonOf_code {why : FreeReason} (h : why.wf = true) : reasonOf (reasonCode why) = why := by
  cases why with
  | undefined code =>
    simp only [FreeReason.wf, Bool.and_eq_true, decide_eq_true_eq] at h
    obtain rfl | hlarge := h.2
    · rfl
    · obtain ⟨n, rfl⟩ := Nat.exists_eq_add_of_lt hlarge
      rw [reasonCode, show 4 + n + 1 = n + 5 by omega]
      rfl
  | _ => rfl

theorem reasonCode_lt {why : FreeReason} (h : why.wf = true) : reasonCode why < 256 := by
  cases why with
  | undefined code =>
    simp only [FreeReason.wf, Bool.and_eq_true, isByte_iff] at h
    exact h.1
  | _ => decide

theorem optField_getD {width : Nat → Bool} {o : Option Nat} (h : optWf width o = true) : optField (o.getD 0) = o := by
  cases o with
  | none => rfl
  | some n =>
    simp only [optWf, Bool.and_eq_true, decide_eq_true_eq] at h
    exact if_neg h.1

theorem optWf_getD_lt {width : Nat → Bool} {bound : Nat} (hwidth : ∀ n, width n = true → n < bound) (hpos : 0 < bound)
    {o : Option Nat} (h : optWf width o = true) : o.getD 0 < bound := by
  cases o with
  | none => exact hpos
  | some n =>
    simp only [optWf, Bool.and_eq_true] at h
    exact hwidth n h.2

theorem carriedPriority_getD {r : SlabRecord} (h : priorityWf r = true) :
    carriedPriority r.state (r.priority.getD 0) = r.priority := by
  unfold priorityWf at h
  unfold carriedPriority
  cases hp : r.priority with
  | none =>
    rw [hp] at h
    rw [if_neg (by simpa using h)]
    rfl
  | some p =>
    simp only [hp, Bool.and_eq_true, Bool.or_eq_true, decide_eq_true_eq] at h
    by_cases hshows : showsHeld r.state = true
    · rw [if_pos hshows]
      rfl
    · rw [if_neg hshows]
      exact if_neg (h.1.resolve_left hshows)

theorem priority_lt {r : SlabRecord} (h : priorityWf r = true) : r.priority.getD 0 < 256 := by
  unfold priorityWf at h
  cases hp : r.priority with
  | none => decide
  | some p =>
    simp only [hp, Bool.and_eq_true, isByte_iff] at h
    exact h.2

/-! ### The slab record -/

theorem encodeParent_length (o : Option SlabId) : (encodeParent o).length = 5 := by
  cases o <;> rfl

theorem optParent_encode (front rest : List Byte) {o : Option SlabId} (h : parentWf o = true) :
    optParent (slabIdAt (front ++ (encodeParent o ++ rest)) front.length) = o := by
  cases o with
  | none =>
    have hzero : encodeParent none = encodeSlabId ⟨0, 0, 0⟩ := rfl
    rw [hzero, slabIdAt_encode front rest (by rfl)]
    rfl
  | some id =>
    simp only [parentWf, Bool.and_eq_true, decide_eq_true_eq] at h
    rw [encodeParent, slabIdAt_encode front rest h.2]
    exact if_neg h.1

/-- R177: the bytes of a slab record between the ids and the defects. -/
def slabFields (r : SlabRecord) : List Byte :=
  [byte (slabStateCode r.state), byte (slabFlags r), byte r.cls, byte r.thickness]
    ++ w16 r.length ++ w16 r.width ++ [byte (r.holder.getD 0)] ++ w16 (r.job.getD 0)
    ++ [byte (r.priority.getD 0), byte r.place] ++ w16 r.version ++ w32 r.value ++ [byte r.defects.length]

theorem encodeSlab_parts (r : SlabRecord) : encodeSlab r
    = (encodeSlabId r.id ++ encodeParent r.parent ++ slabFields r) ++ r.defects.flatMap encodeDefect := by
  simp only [encodeSlab, slabFields, List.append_assoc]

theorem slabHead_length (r : SlabRecord) : (encodeSlabId r.id ++ encodeParent r.parent ++ slabFields r).length = 30 := by
  rw [List.length_append, List.length_append, encodeParent_length]
  rfl

theorem defects_bytes_length (ds : List Defect) : (ds.flatMap encodeDefect).length = 8 * ds.length :=
  Laws.FitsFrame.flatMap_length encodeDefect 8 encodeDefect_length ds

theorem encodeSlab_length (r : SlabRecord) : (encodeSlab r).length = slabSize r := by
  rw [encodeSlab_parts, List.length_append, slabHead_length, defects_bytes_length, slabSize]

section
variable {r : SlabRecord} (rest : List Byte)

/-- A field behind the two ids. -/
theorem rd8_slabFields {k : Nat} (h : k < 20) : rd8 (encodeSlab r ++ rest) (10 + k) = rd8 (slabFields r) k := by
  have hids : (encodeSlabId r.id ++ encodeParent r.parent).length = 10 := by
    rw [List.length_append, encodeParent_length]
    rfl
  have hread := rd8_append_right (encodeSlabId r.id ++ encodeParent r.parent)
    (slabFields r ++ (r.defects.flatMap encodeDefect ++ rest)) k
  rw [hids, rd8_append_left _ (show k < (slabFields r).length from h)] at hread
  rw [← hread, encodeSlab_parts]
  simp only [List.append_assoc]

/-- R177, R162: a record is read back from its bytes, whatever follows them. -/
theorem decodeSlab_encode (h : r.wf = true) : decodeSlab (encodeSlab r ++ rest) = r
    ∧ rd8 (encodeSlab r ++ rest) 29 = r.defects.length := by
  simp only [SlabRecord.wf, Bool.and_eq_true, isByte_iff, isWord_iff, isLong_iff, decide_eq_true_eq] at h
  obtain ⟨⟨⟨⟨⟨⟨⟨⟨⟨⟨⟨⟨⟨⟨hid, hparent⟩, hcls⟩, hthick⟩, hlength⟩, hwidth⟩, hdefects⟩, hall⟩, hvalue⟩, hholder⟩, hjob⟩,
    hpriority⟩, hstate⟩, hplace⟩, hversion⟩ := h
  have hbyte : ∀ k, k < 20 → rd8 (encodeSlab r ++ rest) (10 + k) = rd8 (slabFields r) k := fun k hk =>
    rd8_slabFields rest hk
  have hcount : rd8 (encodeSlab r ++ rest) 29 = r.defects.length :=
    (hbyte 19 (by decide)).trans (byte_toNat_of_lt (by omega))
  have hcode : rd8 (encodeSlab r ++ rest) 10 = slabStateCode r.state :=
    (hbyte 0 (by decide)).trans (byte_toNat_of_lt (slabStateCode_lt hstate))
  have hflags : rd8 (encodeSlab r ++ rest) 11 = slabFlags r :=
    (hbyte 1 (by decide)).trans (byte_toNat_of_lt (by unfold slabFlags; cases r.edge <;> cases r.scored <;> decide))
  have hidAt : slabIdAt (encodeSlab r ++ rest) 0 = r.id := by
    rw [encodeSlab_parts, List.append_assoc, List.append_assoc, List.append_assoc]
    exact slabIdAt_encode [] _ hid
  have hparentAt : optParent (slabIdAt (encodeSlab r ++ rest) 5) = r.parent := by
    rw [encodeSlab_parts, List.append_assoc, List.append_assoc, List.append_assoc]
    exact optParent_encode (encodeSlabId r.id) _ hparent
  have hdefectsAt : (List.range r.defects.length).map (fun k => defectAt (encodeSlab r ++ rest) (30 + 8 * k))
      = r.defects := by
    have := defectsAt_encode r.defects (encodeSlabId r.id ++ encodeParent r.parent ++ slabFields r) rest hall
    rwa [slabHead_length, ← List.append_assoc, ← encodeSlab_parts] at this
  have hword : ∀ k n, k + 1 < 20 → rd8 (slabFields r) k + 256 * rd8 (slabFields r) (k + 1) = n →
      rd16 (encodeSlab r ++ rest) (10 + k) = n := fun k n hk hn => by
    rw [rd16, hbyte k (by omega), Nat.add_assoc, hbyte (k + 1) hk, hn]
  have hlong : rd32 (encodeSlab r ++ rest) 25 = r.value := by
    rw [rd32, hbyte 15 (by decide), hbyte 16 (by decide), hbyte 17 (by decide), hbyte 18 (by decide)]
    exact byte_long hvalue
  have hjobLt : r.job.getD 0 < 65536 := optWf_getD_lt (fun n hn => (isWord_iff n).mp hn) (by decide) hjob
  have hholderLt : r.holder.getD 0 < 256 := optWf_getD_lt (fun n hn => (isByte_iff n).mp hn) (by decide) hholder
  refine ⟨?_, hcount⟩
  rw [decodeSlab, hidAt, hparentAt, hcount, hdefectsAt, hcode, hflags, hlong, slabStateOf_code hstate,
    (hbyte 2 (by decide)).trans (byte_toNat_of_lt hcls), (hbyte 3 (by decide)).trans (byte_toNat_of_lt hthick),
    hword 4 r.length (by decide) (byte_word hlength), hword 6 r.width (by decide) (byte_word hwidth),
    (hbyte 8 (by decide)).trans (byte_toNat_of_lt hholderLt), hword 9 _ (by decide) (byte_word hjobLt),
    (hbyte 11 (by decide)).trans (byte_toNat_of_lt (priority_lt hpriority)),
    (hbyte 12 (by decide)).trans (byte_toNat_of_lt hplace), hword 13 _ (by decide) (byte_word hversion),
    optField_getD hholder, optField_getD hjob, carriedPriority_getD hpriority]
  have hedge : (if slabFlags r % 2 = 0 then EdgeKind.raw else .cut) = r.edge := by
    unfold slabFlags
    cases r.edge <;> cases r.scored <;> rfl
  have hscored : decide (slabFlags r / 2 % 2 = 1) = r.scored := by
    unfold slabFlags
    cases r.edge <;> cases r.scored <;> rfl
  rw [hedge, hscored]

end

/-! ### Fragments of records -/

theorem decodeSlabs_encode {rs : List SlabRecord} (h : rs.all SlabRecord.wf = true) :
    decodeSlabs rs.length (rs.flatMap encodeSlab) = rs := by
  induction rs with
  | nil => rfl
  | cons r rs ih =>
    obtain ⟨hr, hrs⟩ : r.wf = true ∧ rs.all SlabRecord.wf = true := by simpa using h
    obtain ⟨hread, hcount⟩ := decodeSlab_encode (rs.flatMap encodeSlab) hr
    rw [List.length_cons, List.flatMap_cons, decodeSlabs, hread, hcount]
    refine congrArg (r :: ·) ?_
    have hlen : 30 + 8 * r.defects.length = (encodeSlab r).length := (encodeSlab_length r).symm
    rw [hlen, List.drop_left]
    exact ih hrs

theorem slabsFit_encode {rs : List SlabRecord} (h : rs.all SlabRecord.wf = true) :
    slabsFit rs.length (rs.flatMap encodeSlab) = true := by
  induction rs with
  | nil => rfl
  | cons r rs ih =>
    obtain ⟨hr, hrs⟩ : r.wf = true ∧ rs.all SlabRecord.wf = true := by simpa using h
    obtain ⟨-, hcount⟩ := decodeSlab_encode (rs.flatMap encodeSlab) hr
    have hfour : r.defects.length ≤ 4 := by
      simp only [SlabRecord.wf, Bool.and_eq_true, decide_eq_true_eq] at hr
      exact hr.1.1.1.1.1.1.1.1.2
    have hlen : (encodeSlab r).length = 30 + 8 * r.defects.length := encodeSlab_length r
    rw [List.length_cons, List.flatMap_cons, slabsFit, hcount, List.length_append, ← hlen, List.drop_left, ih hrs,
      Bool.and_true, Bool.and_eq_true, Bool.and_eq_true, decide_eq_true_eq, decide_eq_true_eq, decide_eq_true_eq]
    omega

end Sys2Proof.Machine
end
section
/-! PROOF. A shop-line frame is read back from its bytes, and taken up by a receiver at its last byte (R159 to R162, R175). -/

namespace Sys2Proof.Machine

/-! ### Payloads -/

theorem decodeSlab_alone {r : SlabRecord} (h : r.wf = true) : decodeSlab (encodeSlab r) = r := by
  have := (decodeSlab_encode [] h).1
  rwa [List.append_nil] at this

theorem slabsFit_one {r : SlabRecord} (h : r.wf = true) : slabsFit 1 (encodeSlab r) = true := by
  have := slabsFit_encode (rs := [r]) (by simpa using h)
  simpa using this

theorem slab_defects_le {r : SlabRecord} (h : r.wf = true) : r.defects.length ≤ 4 := by
  simp only [SlabRecord.wf, Bool.and_eq_true, decide_eq_true_eq] at h
  exact h.1.1.1.1.1.1.1.1.2

theorem stockHead_length (reason pre n : Nat) : (stockHead reason pre n).length = 4 := rfl

/-- R175: the fields of a stock head. -/
theorem stockHead_reads {reason pre n : Nat} (body : List Byte) (hreason : reason < 256) (hpre : pre < 65536)
    (hn : n < 256) : rd8 (stockHead reason pre n ++ body) 0 = reason ∧ rd16 (stockHead reason pre n ++ body) 1 = pre
      ∧ rd8 (stockHead reason pre n ++ body) 3 = n ∧ (stockHead reason pre n ++ body).drop 4 = body :=
  ⟨byte_toNat_of_lt hreason, byte_word hpre, byte_toNat_of_lt hn, rfl⟩

theorem encodeSlabs_length (rs : List SlabRecord) : (rs.flatMap encodeSlab).length = (rs.map slabSize).sum := by
  induction rs with
  | nil => rfl
  | cons r rs ih => rw [List.flatMap_cons, List.length_append, ih, encodeSlab_length, List.map_cons, List.sum_cons]

theorem records_length_le (rs : List SlabRecord) : rs.length ≤ (rs.map slabSize).sum := by
  induction rs with
  | nil => exact Nat.le_refl _
  | cons r rs ih =>
    rw [List.length_cons, List.map_cons, List.sum_cons, slabSize]
    omega

theorem recordsWf_iff (rs : List SlabRecord) : recordsWf rs = true
    ↔ 1 ≤ rs.length ∧ rs.all SlabRecord.wf = true ∧ 4 + (rs.map slabSize).sum ≤ 128 := by
  simp only [recordsWf, Bool.and_eq_true, decide_eq_true_eq, and_assoc]
  cases rs <;> simp

/-- What the frame's checks and the receiver ask of a payload (R162, R175). -/
structure PayloadReads (n : Notice) : Prop where
  length : (encodePayload n).length ≤ 128
  layout : layoutFits (kindCode n) (encodePayload n) = true
  decode : decodePayload (kindCode n) (encodePayload n) = some n

/-- R175: the layout of a notice with one record. -/
theorem layoutFits_one {kind reason pre : Nat} {r : SlabRecord}
    (hkind : kind = 1 ∨ kind = 2 ∨ kind = 3 ∨ kind = 4 ∨ kind = 5 ∨ kind = 7) (hreason : reason < 256) (hpre : pre < 65536)
    (h : r.wf = true) : layoutFits kind (stockHead reason pre 1 ++ encodeSlab r) = true := by
  obtain ⟨-, -, hcount, hdrop⟩ := stockHead_reads (encodeSlab r) hreason hpre (show 1 < 256 by decide)
  rw [layoutFits, if_neg (by omega), if_pos hkind, hcount, hdrop, slabsFit_one h]
  simp [stockHead_length]

theorem layoutFits_many {kind pre : Nat} {rs : List SlabRecord} (hkind : kind = 6 ∨ kind = 9) (hpre : pre < 65536)
    (h : recordsWf rs = true) : layoutFits kind (stockHead 0 pre rs.length ++ rs.flatMap encodeSlab) = true := by
  obtain ⟨hsome, hall, hsize⟩ := (recordsWf_iff rs).mp h
  have hle := records_length_le rs
  obtain ⟨-, -, hcount, hdrop⟩ := stockHead_reads (rs.flatMap encodeSlab) (show 0 < 256 by decide) hpre
    (show rs.length < 256 by omega)
  rw [layoutFits, if_pos hkind, hcount, hdrop, slabsFit_encode hall]
  simp [stockHead_length, hsome]

theorem payload_one_length {reason pre : Nat} {r : SlabRecord} (h : r.wf = true) :
    (stockHead reason pre 1 ++ encodeSlab r).length ≤ 128 := by
  have := slab_defects_le h
  rw [List.length_append, stockHead_length, encodeSlab_length, slabSize]
  omega

theorem payload_many_length {pre : Nat} {rs : List SlabRecord} (h : recordsWf rs = true) :
    (stockHead 0 pre rs.length ++ rs.flatMap encodeSlab).length ≤ 128 := by
  obtain ⟨-, -, hsize⟩ := (recordsWf_iff rs).mp h
  rw [List.length_append, stockHead_length, encodeSlabs_length]
  exact hsize

/-- A notice with one record, its reason and precondition version. -/
theorem PayloadReads.one {n : Notice} {reason pre : Nat} {r : SlabRecord} (hreason : reason < 256) (hpre : pre < 65536)
    (h : r.wf = true) (hpayload : encodePayload n = stockHead reason pre 1 ++ encodeSlab r)
    (hkind : kindCode n = 1 ∨ kindCode n = 2 ∨ kindCode n = 3 ∨ kindCode n = 4 ∨ kindCode n = 5 ∨ kindCode n = 7)
    (hdecode : ∀ p, rd8 p 0 = reason → rd16 p 1 = pre → decodeSlab (p.drop 4) = r →
      decodePayload (kindCode n) p = some n) : PayloadReads n := by
  obtain ⟨hzero, hone, -, hdrop⟩ := stockHead_reads (encodeSlab r) hreason hpre (show 1 < 256 by decide)
  refine ⟨hpayload ▸ payload_one_length h, hpayload ▸ layoutFits_one hkind hreason hpre h, ?_⟩
  rw [hpayload]
  exact hdecode _ hzero hone (by rw [hdrop]; exact decodeSlab_alone h)

theorem PayloadReads.many {n : Notice} {pre : Nat} {rs : List SlabRecord} (hpre : pre < 65536) (h : recordsWf rs = true)
    (hpayload : encodePayload n = stockHead 0 pre rs.length ++ rs.flatMap encodeSlab)
    (hkind : kindCode n = 6 ∨ kindCode n = 9)
    (hdecode : ∀ p, rd16 p 1 = pre → decodeSlabs (rd8 p 3) (p.drop 4) = rs → decodePayload (kindCode n) p = some n) :
    PayloadReads n := by
  obtain ⟨hsome, hall, hsize⟩ := (recordsWf_iff rs).mp h
  have hle := records_length_le rs
  obtain ⟨-, hone, hcount, hdrop⟩ := stockHead_reads (rs.flatMap encodeSlab) (show 0 < 256 by decide) hpre
    (show rs.length < 256 by omega)
  refine ⟨hpayload ▸ payload_many_length h, hpayload ▸ layoutFits_many hkind hpre h, ?_⟩
  rw [hpayload]
  exact hdecode _ hone (by rw [hcount, hdrop]; exact decodeSlabs_encode hall)

theorem payload_tally {t : Tally} (h : t.wf = true) : PayloadReads (.tally t) := by
  simp only [Tally.wf, Bool.and_eq_true, isWord_iff, isLong_iff] at h
  obtain ⟨⟨⟨⟨⟨⟨⟨hjob, htime⟩, hwater⟩, hwear⟩, hslab⟩, hvolume⟩, hlength⟩, hpieces⟩ := h
  have hreads : rd16 (encodePayload (.tally t)) 0 = t.job ∧ rd32 (encodePayload (.tally t)) 2 = t.time
      ∧ rd32 (encodePayload (.tally t)) 6 = t.water ∧ rd32 (encodePayload (.tally t)) 10 = t.wear
      ∧ rd32 (encodePayload (.tally t)) 14 = t.slab ∧ rd32 (encodePayload (.tally t)) 18 = t.volume
      ∧ rd32 (encodePayload (.tally t)) 22 = t.length ∧ rd16 (encodePayload (.tally t)) 26 = t.pieces :=
    ⟨byte_word hjob, byte_long htime, byte_long hwater, byte_long hwear, byte_long hslab, byte_long hvolume,
      byte_long hlength, byte_word hpieces⟩
  obtain ⟨rjob, rtime, rwater, rwear, rslab, rvolume, rlength, rpieces⟩ := hreads
  refine ⟨(show 28 ≤ 128 by decide), rfl, ?_⟩
  simp only [kindCode, decodePayload, rjob, rtime, rwater, rwear, rslab, rvolume, rlength, rpieces]

theorem payload_draw {q g : Nat} {l : Bool} (hq : q < 256) (hg : g < 256) : PayloadReads (.draw q l g) := by
  have hreads : rd8 (encodePayload (.draw q l g)) 0 = q ∧ rd8 (encodePayload (.draw q l g)) 2 = g
      ∧ decide (rd8 (encodePayload (.draw q l g)) 1 % 2 = 1) = l :=
    ⟨byte_toNat_of_lt hq, byte_toNat_of_lt hg, by cases l <;> rfl⟩
  obtain ⟨rq, rg, rl⟩ := hreads
  refine ⟨(show 3 ≤ 128 by decide), rfl, ?_⟩
  simp only [kindCode, decodePayload, rq, rg, rl]

theorem payload_plant {c f : Nat} {st sl : Bool} (hc : c < 65536) (hf : f < 256) : PayloadReads (.plant c f st sl) := by
  have rc : rd16 (encodePayload (.plant c f st sl)) 0 = c := byte_word hc
  have rf : rd8 (encodePayload (.plant c f st sl)) 2 = f := byte_toNat_of_lt hf
  have rflags : rd8 (encodePayload (.plant c f st sl)) 3 = (byte (bit st + 2 * bit sl)).toNat := rfl
  have rst : decide ((byte (bit st + 2 * bit sl)).toNat % 2 = 1) = st := by cases st <;> cases sl <;> rfl
  have rsl : decide ((byte (bit st + 2 * bit sl)).toNat / 2 % 2 = 1) = sl := by cases st <;> cases sl <;> rfl
  refine ⟨(show 4 ≤ 128 by decide), rfl, ?_⟩
  simp only [kindCode, decodePayload, rc, rf, rflags, rst, rsl]

theorem rd16_alone {j : Nat} (h : j < 65536) : rd16 (w16 j) 0 = j := byte_word h

/-- R175: every notice is read back from its payload. -/
theorem payload_reads {n : Notice} (h : n.wf = true) : PayloadReads n := by
  cases n with
  | yardIn r => exact .one (pre := 0) (by decide) (by decide) h rfl (.inl rfl) fun p _ _ hd => by rw [← hd]; rfl
  | claim pre r =>
    simp only [Notice.wf, Bool.and_eq_true, isWord_iff] at h
    exact .one (by decide) h.1 h.2 rfl (by simp [kindCode]) fun p _ hp hd => by rw [← hp, ← hd]; rfl
  | lapse pre r =>
    simp only [Notice.wf, Bool.and_eq_true, isWord_iff] at h
    exact .one (by decide) h.1 h.2 rfl (by simp [kindCode]) fun p _ hp hd => by rw [← hp, ← hd]; rfl
  | free why pre r =>
    simp only [Notice.wf, Bool.and_eq_true, isWord_iff] at h
    exact .one (reasonCode_lt h.1.1) h.1.2 h.2 rfl (by simp [kindCode]) fun p hr hp hd => by
      rw [← hp, ← hd, kindCode, decodePayload, hr, reasonOf_code h.1.1]
  | load pre r =>
    simp only [Notice.wf, Bool.and_eq_true, isWord_iff] at h
    exact .one (by decide) h.1 h.2 rfl (by simp [kindCode]) fun p _ hp hd => by rw [← hp, ← hd]; rfl
  | scrap pre r =>
    simp only [Notice.wf, Bool.and_eq_true, isWord_iff] at h
    exact .one (by decide) h.1 h.2 rfl (by simp [kindCode]) fun p _ hp hd => by rw [← hp, ← hd]; rfl
  | split pre rs =>
    simp only [Notice.wf, Bool.and_eq_true, isWord_iff] at h
    exact .many h.1 h.2 rfl (.inl rfl) fun p hp hd => by rw [← hp, ← hd]; rfl
  | stockState rs => exact .many (pre := 0) (by decide) h rfl (.inr rfl) fun p _ hd => by rw [← hd]; rfl
  | draw q l g =>
    simp only [Notice.wf, Bool.and_eq_true, isByte_iff] at h
    exact payload_draw h.1 h.2
  | plant c f st sl =>
    simp only [Notice.wf, Bool.and_eq_true, isByte_iff, isWord_iff] at h
    exact payload_plant h.1 h.2
  | tally t => exact payload_tally h
  | jobOpen j =>
    exact ⟨(show 2 ≤ 128 by decide), rfl, congrArg (some ∘ Notice.jobOpen) (rd16_alone ((isWord_iff j).mp h))⟩
  | jobClose j =>
    exact ⟨(show 2 ≤ 128 by decide), rfl, congrArg (some ∘ Notice.jobClose) (rd16_alone ((isWord_iff j).mp h))⟩
  | stockAsk => exact ⟨Nat.zero_le _, rfl, rfl⟩
  | waterOverride => exact ⟨Nat.zero_le _, rfl, rfl⟩
  | restart => exact ⟨Nat.zero_le _, rfl, rfl⟩

theorem kindCode_range (n : Notice) : 1 ≤ kindCode n ∧ kindCode n ≤ 16 := by
  cases n <;> exact ⟨by simp [kindCode], by simp [kindCode]⟩

/-! ### Frames -/

section
variable {sender index count : Nat} {n : Notice}

/-- R160: the parts of a frame. -/
theorem encodeFrame_reads (hsender : sender < 256) (hindex : 16 * index + count < 256)
    (hlen : (encodePayload n).length ≤ 128) :
    (encodeFrame sender index count n).length = 7 + (encodePayload n).length
    ∧ rd8 (encodeFrame sender index count n) 1 = sender ∧ rd8 (encodeFrame sender index count n) 2 = kindCode n
    ∧ rd8 (encodeFrame sender index count n) 3 = 16 * index + count
    ∧ rd8 (encodeFrame sender index count n) 4 = (encodePayload n).length
    ∧ ((encodeFrame sender index count n).drop 5).take (encodePayload n).length = encodePayload n
    ∧ (encodeFrame sender index count n).drop (5 + (encodePayload n).length)
      = checkBytes (((encodeFrame sender index count n).drop 1).take (4 + (encodePayload n).length)) := by
  have hkind := kindCode_range n
  have hdrop : (encodeFrame sender index count n).drop 5 = encodePayload n ++ checkBytes ([byte sender,
      byte (kindCode n), byte (16 * index + count), byte (encodePayload n).length] ++ encodePayload n) := rfl
  have hcovered : ((encodeFrame sender index count n).drop 1).take (4 + (encodePayload n).length)
      = [byte sender, byte (kindCode n), byte (16 * index + count), byte (encodePayload n).length]
        ++ encodePayload n :=
    List.take_left' (by simp; omega)
  refine ⟨?_, byte_toNat_of_lt hsender, byte_toNat_of_lt (by omega), byte_toNat_of_lt hindex, byte_toNat_of_lt (by omega),
    ?_, ?_⟩
  · simp [encodeFrame, checkBytes]
    omega
  · rw [hdrop, List.take_left]
  · rw [← List.drop_drop, hdrop, List.drop_left, hcovered]

variable (hsender : isStation sender = true) (hfragment : fragmentOk (kindCode n) index count = true)
    (hwf : n.wf = true)
include hsender hfragment hwf

/-- R162: a notice's frame passes every check and carries the notice. -/
theorem decodeFrame_encode : frameFault (encodeFrame sender index count n) = none
    ∧ decodeFrame (encodeFrame sender index count n) = some (sender, index, count, n) := by
  obtain ⟨hlow, hhigh⟩ := (within_iff ..).mp hsender
  have hnumbers : 1 ≤ index ∧ index ≤ count ∧ count ≤ 8 := by
    simp only [fragmentOk, Bool.and_eq_true, decide_eq_true_eq] at hfragment
    exact ⟨hfragment.1.1.1, hfragment.1.1.2, hfragment.1.2⟩
  obtain ⟨hlen, hlayout, hdecode⟩ := payload_reads hwf
  obtain ⟨rlength, rsender, rkind, rnumbers, rsize, rpayload, rcheck⟩ :=
    encodeFrame_reads (sender := sender) (index := index) (count := count) (n := n) (by omega) (by omega) hlen
  have hkind := kindCode_range n
  have hindex : (16 * index + count) / 16 = index := by omega
  have hcount : (16 * index + count) % 16 = count := by omega
  have hfault : frameFault (encodeFrame sender index count n) = none := by
    have hmark : (encodeFrame sender index count n).getD 0 0#8 = 0xB4#8 := rfl
    rw [frameFault, rsize, rpayload, rkind, rsender, rnumbers, hindex, hcount, rlength, rcheck, hmark, hlayout, hfragment,
      if_neg (by simp only [ne_eq, not_true, reduceCtorEq, or_false, false_or]; omega), if_neg (by simp), if_neg (by omega),
      if_neg (by omega), if_neg (by decide)]
  refine ⟨hfault, ?_⟩
  rw [decodeFrame, hfault]
  simp only [rsize, rpayload, rkind, hdecode, rsender, rnumbers, hindex, hcount]

end

/-! ### The receiver -/

theorem lineFrameEvent_fault {l : List Byte} (h : frameFault l ≠ none) : lineFrameEvent l = .frameDropped l := by
  obtain ⟨why, hwhy⟩ := Option.ne_none_iff_exists'.mp h
  rw [lineFrameEvent, lineEvent, hwhy]
  rfl

theorem frameFault_mark {l : List Byte} (h : l.getD 0 0#8 ≠ 0xB4#8) : frameFault l ≠ none := by
  rw [frameFault, if_pos (.inl h)]
  exact Option.some_ne_none _

theorem frameFault_length {l : List Byte} (h : l.length < 7 ∨ 128 < rd8 l 4 ∨ l.length ≠ 7 + rd8 l 4) :
    frameFault l ≠ none := by
  rw [frameFault, if_pos (by tauto)]
  exact Option.some_ne_none _

theorem getD_of_head {l : List Byte} (h : l.head? = some 0xB4#8) : l.getD 0 0#8 = 0xB4#8 := by
  cases l with
  | nil => cases h
  | cons b bs => exact Option.some.inj h

theorem lineFrameEnds_iff {l : List Byte} (h : l.head? = some 0xB4#8) : lineFrameEnds l = true
    ↔ 5 ≤ l.length ∧ (128 < rd8 l 4 ∨ l.length = 7 + rd8 l 4) := by
  simp only [lineFrameEnds, getD_of_head h, Bool.or_eq_true, Bool.and_eq_true, decide_eq_true_eq, ne_eq, not_true,
    false_or]

/-- R159: a frame comes to its event at its last byte: the one at which its length is exceeded, or its last check byte. -/
theorem lineReceive_whole {frame : List Byte} (rest : List LineInput) (hmark : frame.head? = some 0xB4#8)
    (h : (frame.length = 5 ∧ 128 < rd8 frame 4) ∨ (rd8 frame 4 ≤ 128 ∧ frame.length = 7 + rd8 frame 4)) :
    lineReceive (.taking []) (lineBytes frame ++ rest) = lineFrameEvent frame :: lineReceive .untilQuiet rest := by
  have hpos : frame ≠ [] := by
    rintro rfl
    cases hmark
  have hwhole := List.dropLast_concat_getLast hpos
  have hfront : ∀ n, 0 < n → n ≤ frame.dropLast.length → lineFrameEnds (frame.dropLast.take n) = false := by
    intro n h0 hn
    rw [List.length_dropLast] at hn
    rw [List.dropLast_eq_take, List.take_take, Nat.min_eq_left hn]
    exact lineFrameEnds_take frame n h0 hmark (by omega)
  have := lineReceive_frame frame.dropLast (frame.getLast hpos) rest hfront
    (by rw [hwhole, lineFrameEnds_iff hmark]; omega)
  rwa [hwhole] at this

theorem lineReceive_short {part : List Byte} (rest : List LineInput) (hmark : part.head? = some 0xB4#8)
    (h : part.length < 5 ∨ (rd8 part 4 ≤ 128 ∧ part.length < 7 + rd8 part 4)) :
    lineReceive (.taking []) (lineBytes part ++ .quiet :: rest)
      = .frameDropped part :: lineReceive (.taking []) rest := by
  rw [lineReceive_cutShort part rest (by rintro rfl; cases hmark)
      fun n h0 hn => lineFrameEnds_take part n h0 hmark (by omega),
    lineFrameEvent_fault (frameFault_length (by omega))]

theorem lineReceive_noMark {b : Byte} (rest : List LineInput) (h : b ≠ 0xB4#8) :
    lineReceive (.taking []) (.byte b :: rest) = .frameDropped [b] :: lineReceive .untilQuiet rest := by
  rw [lineReceive, if_pos (by simp [lineFrameEnds, h]), List.nil_append, lineFrameEvent_fault (frameFault_mark (l := [b]) h)]

theorem lineFrameEvent_encode {sender index count : Nat} {n : Notice} (hsender : isStation sender = true)
    (hfragment : fragmentOk (kindCode n) index count = true) (hwf : n.wf = true) :
    lineFrameEvent (encodeFrame sender index count n) = noticeEvent sender index count n := by
  obtain ⟨hfault, hdecode⟩ := decodeFrame_encode hsender hfragment hwf
  rw [lineFrameEvent, lineEvent, hfault, hdecode]
  rfl

/-- The length an accepted frame has (R162). -/
theorem frameFault_none_length {l : List Byte} (h : frameFault l = none) : rd8 l 4 ≤ 128 ∧ l.length = 7 + rd8 l 4 := by
  by_contra hbad
  exact frameFault_length (by omega) h

/-- Settles O11: a notice's fields are read back from its payload layout by layout, and a receiver takes a frame at its
last byte, since no part of it ends a frame. -/
theorem lineFrameRoundTrip : Obligations.LineFrameRoundTrip := by
  refine ⟨fun sender index count n hsender hfragment hwf => ?_, fun rest => ⟨rfl, fun bytes =>
    lineReceive_untilQuiet bytes rest, fun b hb => lineReceive_noMark rest hb, fun part hmark hpart =>
    lineReceive_short rest hmark hpart, fun frame hmark hframe => ?_⟩⟩
  · obtain ⟨hfault, hdecode⟩ := decodeFrame_encode hsender hfragment hwf
    refine ⟨hdecode, fun rest => ?_⟩
    rw [lineReceive_whole rest rfl (.inr (frameFault_none_length hfault)),
      lineFrameEvent_encode hsender hfragment hwf]
  · obtain ⟨hfive, hlong⟩ | ⟨hlength, hwhole, hfault⟩ := hframe
    · rw [lineReceive_whole rest hmark (.inl ⟨hfive, hlong⟩),
        lineFrameEvent_fault (frameFault_length (.inr (.inl hlong)))]
    · rw [lineReceive_whole rest hmark (.inr ⟨hlength, hwhole⟩), lineFrameEvent_fault hfault]

end Sys2Proof.Machine
end
section
/-! PROOF. The frames of the machine port: a command is read back from its type and body (R185), and the frames to the
controller carry their fields in order (R178, R184, R189). -/

namespace Sys2Proof.Machine

/-! ### Commands -/

theorem slabIdAt_alone (rest : List Byte) {id : SlabId} (h : id.wf = true) : slabIdAt (encodeSlabId id ++ rest) 0 = id :=
  slabIdAt_encode [] rest h

theorem encodeStepEntries_length (es : List StepEntry) : (es.flatMap encodeStepEntry).length = 4 * es.length := by
  induction es with
  | nil => rfl
  | cons e es ih =>
    rw [List.flatMap_cons, List.length_append, ih, List.length_cons, show (encodeStepEntry e).length = 4 from rfl]
    omega

theorem encodeLeafEntries_length (es : List LeafEntry) : (es.flatMap encodeLeafEntry).length = 6 * es.length := by
  induction es with
  | nil => rfl
  | cons e es ih =>
    rw [List.flatMap_cons, List.length_append, ih, List.length_cons, show (encodeLeafEntry e).length = 6 from rfl]
    omega

theorem encodeDefects_length (ds : List Defect) : (ds.flatMap encodeDefect).length = 8 * ds.length := by
  induction ds with
  | nil => rfl
  | cons d ds ih =>
    rw [List.flatMap_cons, List.length_append, ih, List.length_cons, encodeDefect_length]
    omega

/-- R36: the step entries of a PLAN-PART are read back, whatever follows them. -/
theorem stepEntries_encode (rest : List Byte) {es : List StepEntry} (h : es.all StepEntry.wf = true) :
    stepEntries es.length (es.flatMap encodeStepEntry ++ rest) = es := by
  induction es with
  | nil => rfl
  | cons e es ih =>
    obtain ⟨he, hes⟩ : e.wf = true ∧ es.all StepEntry.wf = true := by simpa using h
    simp only [StepEntry.wf, Bool.and_eq_true, isByte_iff, isWord_iff] at he
    obtain ⟨⟨hregion, haxis⟩, hoffset⟩ := he
    rw [List.flatMap_cons, List.append_assoc]
    refine congrArg₂ List.cons ?_ (ih hes)
    have r0 : rd8 (encodeStepEntry e ++ (es.flatMap encodeStepEntry ++ rest)) 0 = e.region := byte_toNat_of_lt hregion
    have r1 : rd8 (encodeStepEntry e ++ (es.flatMap encodeStepEntry ++ rest)) 1 = e.axis := byte_toNat_of_lt haxis
    have r2 : rd16 (encodeStepEntry e ++ (es.flatMap encodeStepEntry ++ rest)) 2 = e.offset := byte_word hoffset
    rw [r0, r1, r2]

/-- R36: the leaf entries of a PLAN-PART are read back. -/
theorem leafEntries_encode {es : List LeafEntry} (h : es.all LeafEntry.wf = true) :
    leafEntries es.length (es.flatMap encodeLeafEntry) = es := by
  induction es with
  | nil => rfl
  | cons e es ih =>
    obtain ⟨he, hes⟩ : e.wf = true ∧ es.all LeafEntry.wf = true := by simpa using h
    simp only [LeafEntry.wf, Bool.and_eq_true, isByte_iff, isWord_iff, decide_eq_true_eq] at he
    obtain ⟨⟨⟨hregion, hkind⟩, hjob⟩, htag⟩ := he
    rw [List.flatMap_cons]
    refine congrArg₂ List.cons ?_ (ih hes)
    have r0 : rd8 (encodeLeafEntry e ++ es.flatMap encodeLeafEntry) 0 = e.region := byte_toNat_of_lt hregion
    have r1 : rd8 (encodeLeafEntry e ++ es.flatMap encodeLeafEntry) 1 = e.kind := byte_toNat_of_lt (by omega)
    have r2 : rd16 (encodeLeafEntry e ++ es.flatMap encodeLeafEntry) 2 = e.job := byte_word hjob
    have r4 : rd16 (encodeLeafEntry e ++ es.flatMap encodeLeafEntry) 4 = e.tag := byte_word htag
    rw [r0, r1, r2, r4, Nat.mod_eq_of_lt hkind]

theorem portCommand_planPart {steps : List StepEntry} {leaves : List LeafEntry}
    (h : (Instr.planPart steps leaves).wf = true) :
    portCommand 0x25 (commandBody (.planPart steps leaves)) = some (.planPart steps leaves) := by
  simp only [Instr.wf, Bool.and_eq_true, isByte_iff] at h
  obtain ⟨⟨⟨hsteps, hleaves⟩, hswf⟩, hlwf⟩ := h
  have r0 : rd8 (commandBody (.planPart steps leaves)) 0 = steps.length := byte_toNat_of_lt hsteps
  have r1 : rd8 (commandBody (.planPart steps leaves)) 1 = leaves.length := byte_toNat_of_lt hleaves
  have hlen : (commandBody (.planPart steps leaves)).length = 2 + 4 * steps.length + 6 * leaves.length := by
    rw [commandBody, List.length_cons, List.length_cons, List.length_append, encodeStepEntries_length,
      encodeLeafEntries_length]
    omega
  have hdrop : (commandBody (.planPart steps leaves)).drop 2
      = steps.flatMap encodeStepEntry ++ leaves.flatMap encodeLeafEntry := rfl
  simp only [portCommand]
  rw [r0, r1, if_pos ⟨by omega, hlen⟩, ← List.drop_drop, hdrop, stepEntries_encode _ hswf,
    ← encodeStepEntries_length, List.drop_left, leafEntries_encode hlwf]

theorem portCommand_yardIn {cls thickness length width value : Nat} {defects : List Defect}
    (h : (Instr.yardIn cls thickness length width defects value).wf = true) :
    portCommand 0x60 (commandBody (.yardIn cls thickness length width defects value))
      = some (.yardIn cls thickness length width defects value) := by
  simp only [Instr.wf, Bool.and_eq_true, isByte_iff, isWord_iff, isLong_iff] at h
  obtain ⟨⟨⟨⟨⟨⟨hcls, hthickness⟩, hlength⟩, hwidth⟩, hcount⟩, hall⟩, hvalue⟩ := h
  let front : List Byte := [byte cls, byte thickness] ++ w16 length ++ w16 width ++ [byte defects.length]
  have hbody : commandBody (.yardIn cls thickness length width defects value)
      = front ++ (defects.flatMap encodeDefect ++ w32 value) := rfl
  have r0 : rd8 (front ++ (defects.flatMap encodeDefect ++ w32 value)) 0 = cls := byte_toNat_of_lt hcls
  have r1 : rd8 (front ++ (defects.flatMap encodeDefect ++ w32 value)) 1 = thickness := byte_toNat_of_lt hthickness
  have r2 : rd16 (front ++ (defects.flatMap encodeDefect ++ w32 value)) 2 = length := byte_word hlength
  have r4 : rd16 (front ++ (defects.flatMap encodeDefect ++ w32 value)) 4 = width := byte_word hwidth
  have r6 : rd8 (front ++ (defects.flatMap encodeDefect ++ w32 value)) 6 = defects.length := byte_toNat_of_lt hcount
  have hlen : (front ++ (defects.flatMap encodeDefect ++ w32 value)).length = 11 + 8 * defects.length := by
    have hrest : (defects.flatMap encodeDefect ++ w32 value).length = 8 * defects.length + 4 := by
      rw [List.length_append, encodeDefects_length, w32_length]
    rw [List.length_append, hrest, show front.length = 7 from rfl]
    omega
  have hdefects := defectsAt_encode defects front (w32 value) hall
  have hread : rd32 (front ++ (defects.flatMap encodeDefect ++ w32 value)) (7 + 8 * defects.length) = value := by
    have := rd32_w32 (front ++ defects.flatMap encodeDefect) [] hvalue
    rwa [List.length_append, encodeDefects_length, List.append_nil, List.append_assoc] at this
  rw [show front.length = 7 from rfl] at hdefects
  simp only [portCommand]
  rw [hbody, r0, r1, r2, r4, r6, if_pos ⟨by omega, hlen⟩, hdefects, hread]

/-- R185: every command is read back from its type and body. -/
theorem portCommand_commandBody {i : Instr} {c : Cmd} (hwf : i.wf = true) (hc : commandOf i = some c) :
    portCommand (cmdCode c) (commandBody i) = some i := by
  cases i with
  | querySlab id =>
    cases hc
    exact congrArg (some ∘ Instr.querySlab) (slabIdAt_alone [] hwf)
  | release id =>
    cases hc
    exact congrArg (some ∘ Instr.release) (slabIdAt_alone [] hwf)
  | load id =>
    cases hc
    exact congrArg (some ∘ Instr.load) (slabIdAt_alone [] hwf)
  | scrap id =>
    cases hc
    exact congrArg (some ∘ Instr.scrap) (slabIdAt_alone [] hwf)
  | forceFree id =>
    cases hc
    exact congrArg (some ∘ Instr.forceFree) (slabIdAt_alone [] hwf)
  | queryJob job =>
    cases hc
    exact congrArg (some ∘ Instr.queryJob) (rd16_alone ((isWord_iff _).mp hwf))
  | faultAck kinds =>
    cases hc
    exact congrArg (some ∘ Instr.faultAck) (rd16_alone ((isWord_iff _).mp hwf))
  | planAbort length =>
    cases hc
    exact congrArg (some ∘ Instr.planAbort) (rd16_alone ((isWord_iff _).mp hwf))
  | cutHalted length =>
    cases hc
    exact congrArg (some ∘ Instr.cutHalted) (rd16_alone ((isWord_iff _).mp hwf))
  | cutDone length =>
    cases hc
    exact congrArg (some ∘ Instr.cutDone) (rd16_alone ((isWord_iff _).mp hwf))
  | jobOpen job =>
    cases hc
    exact congrArg (some ∘ Instr.jobOpen) (rd16_alone ((isWord_iff _).mp hwf))
  | jobClose job =>
    cases hc
    exact congrArg (some ∘ Instr.jobClose) (rd16_alone ((isWord_iff _).mp hwf))
  | logRead count =>
    cases hc
    exact congrArg (some ∘ Instr.logRead) (byte_toNat_of_lt ((isByte_iff _).mp hwf))
  | stockList start filter =>
    cases hc
    simp only [Instr.wf, Bool.and_eq_true, isByte_iff] at hwf
    exact congrArg some (congrArg₂ Instr.stockList (byte_toNat_of_lt hwf.1) (byte_toNat_of_lt hwf.2))
  | configWrite record =>
    cases hc
    exact if_pos (of_decide_eq_true hwf)
  | claim id job priority =>
    cases hc
    simp only [Instr.wf, Bool.and_eq_true, isByte_iff, isWord_iff] at hwf
    obtain ⟨⟨hid, hjob⟩, hpriority⟩ := hwf
    have rid : slabIdAt (commandBody (.claim id job priority)) 0 = id := slabIdAt_alone (w16 job ++ [byte priority]) hid
    have rjob : rd16 (commandBody (.claim id job priority)) 5 = job := byte_word hjob
    have rpriority : rd8 (commandBody (.claim id job priority)) 7 = priority := byte_toNat_of_lt hpriority
    change some (Instr.claim (slabIdAt (commandBody (.claim id job priority)) 0) (rd16 (commandBody (.claim id job priority)) 5)
      (rd8 (commandBody (.claim id job priority)) 7)) = _
    rw [rid, rjob, rpriority]
  | planBegin header =>
    cases hc
    simp only [Instr.wf, PlanHeader.wf, Bool.and_eq_true, isByte_iff, isWord_iff] at hwf
    obtain ⟨⟨⟨hid, hjob⟩, hsteps⟩, hleaves⟩ := hwf
    have rid : slabIdAt (commandBody (.planBegin header)) 0 = header.slab :=
      slabIdAt_alone (w16 header.chargeJob ++ [byte header.steps, byte header.leaves]) hid
    have rjob : rd16 (commandBody (.planBegin header)) 5 = header.chargeJob := byte_word hjob
    have rsteps : rd8 (commandBody (.planBegin header)) 7 = header.steps := byte_toNat_of_lt hsteps
    have rleaves : rd8 (commandBody (.planBegin header)) 8 = header.leaves := byte_toNat_of_lt hleaves
    change some (Instr.planBegin ⟨slabIdAt (commandBody (.planBegin header)) 0, rd16 (commandBody (.planBegin header)) 5,
      rd8 (commandBody (.planBegin header)) 7, rd8 (commandBody (.planBegin header)) 8⟩) = _
    rw [rid, rjob, rsteps, rleaves]
  | planPart steps leaves =>
    cases hc
    exact portCommand_planPart hwf
  | bladeChange type serial height =>
    cases hc
    simp only [Instr.wf, Bool.and_eq_true, isByte_iff, isWord_iff, isLong_iff] at hwf
    obtain ⟨⟨htype, hserial⟩, hheight⟩ := hwf
    have rtype : rd8 (commandBody (.bladeChange type serial height)) 0 = type := byte_toNat_of_lt htype
    have rserial : rd32 (commandBody (.bladeChange type serial height)) 1 = serial := byte_long hserial
    have rheight : rd16 (commandBody (.bladeChange type serial height)) 5 = height := byte_word hheight
    change some (Instr.bladeChange (rd8 (commandBody (.bladeChange type serial height)) 0)
      (rd32 (commandBody (.bladeChange type serial height)) 1) (rd16 (commandBody (.bladeChange type serial height)) 5)) = _
    rw [rtype, rserial, rheight]
  | plantReport level clarifier makeup =>
    cases hc
    simp only [Instr.wf, Bool.and_eq_true, isWord_iff] at hwf
    obtain ⟨⟨hlevel, hclarifier⟩, hmakeup⟩ := hwf
    have rlevel : rd16 (commandBody (.plantReport level clarifier makeup)) 0 = level := byte_word hlevel
    have rclarifier : rd16 (commandBody (.plantReport level clarifier makeup)) 2 = clarifier := byte_word hclarifier
    have rmakeup : rd16 (commandBody (.plantReport level clarifier makeup)) 4 = makeup := byte_word hmakeup
    change some (Instr.plantReport (rd16 (commandBody (.plantReport level clarifier makeup)) 0)
      (rd16 (commandBody (.plantReport level clarifier makeup)) 2) (rd16 (commandBody (.plantReport level clarifier makeup)) 4)) = _
    rw [rlevel, rclarifier, rmakeup]
  | yardIn cls thickness length width defects value =>
    cases hc
    exact portCommand_yardIn hwf
  | _ => cases hc <;> rfl

/-! ### Frames to the controller -/

/-- Fields whose bytes the spec lays out stand one behind the other, at whatever position. -/
theorem laidBytes (type k : Nat) {α : Type} (encode : α → List Byte) (l : List α) (more : List BodyField) :
    (((l.map fun a => BodyField.laid (encode a)) ++ more).zipIdx k).flatMap (fun f => fieldBytes type f.2 f.1)
      = l.flatMap encode ++ (more.zipIdx (k + l.length)).flatMap (fun f => fieldBytes type f.2 f.1) := by
  induction l generalizing k with
  | nil => rfl
  | cons a l ih =>
    rw [List.map_cons, List.cons_append, List.zipIdx_cons, List.flatMap_cons, ih, List.flatMap_cons, List.append_assoc,
      List.length_cons, show k + 1 + l.length = k + (l.length + 1) by omega]
    rfl

theorem bodyBytes_laid (type : Nat) (bytes : List Byte) (more : List BodyField) :
    ∃ rest, bodyBytes type (.laid bytes :: more) = bytes ++ rest :=
  ⟨_, rfl⟩

theorem bodyBytes_alone (type : Nat) (bytes : List Byte) : bodyBytes type [.laid bytes] = bytes :=
  List.append_nil bytes

/-- R189: a log reply leads with its number of records, in their layout. -/
theorem bodyBytes_log (type : Nat) (records : List LogRecord) (held : Nat) : ∃ number more,
    bodyBytes type (replyFields (.log records held)) = number ++ records.flatMap encodeLogRecord ++ more := by
  refine ⟨fieldBytes type 0 (.number records.length),
    ([BodyField.number held].zipIdx (1 + records.length)).flatMap fun f => fieldBytes type f.2 f.1, ?_⟩
  rw [List.append_assoc, ← laidBytes type 1 encodeLogRecord records [.number held]]
  rfl

/-- R178: a frame to the controller, its covered bytes and its check. -/
theorem portFrame_covered (type : Nat) (body : List Byte) : portFrame type body
    = [0x5A#8] ++ ([byte body.length, byte (body.length / 256), byte type] ++ body)
      ++ [(check ([byte body.length, byte (body.length / 256), byte type] ++ body)).extractLsb' 8 8,
        (check ([byte body.length, byte (body.length / 256), byte type] ++ body)).extractLsb' 0 8] := rfl

/-- R177, R189: what the fields of a reply whose layout the spec gives are. -/
theorem reply_laid (type : Nat) (b : ReplyBody) : (b = .none → bodyBytes type (replyFields b) = [])
    ∧ (∀ id, b = .slabId id → bodyBytes type (replyFields b) = encodeSlabId id)
    ∧ (∀ slab, b = .slab slab → bodyBytes type (replyFields b) = encodeSlab slab)
    ∧ (∀ id, b = .slabAbsent id → bodyBytes type (replyFields b) = encodeSlabId id ++ List.replicate 25 0#8)
    ∧ (∀ g, b = .staging g → ∃ more, bodyBytes type (replyFields b) = encodePlanHeader g.header
      ++ g.steps.flatMap encodeStagedStep ++ g.leaves.flatMap encodeStagedLeaf ++ more)
    ∧ (∀ v, b = .plan v → ∃ more, bodyBytes type (replyFields b) = encodePlanHeader v.header
      ++ v.steps.flatMap encodePlanStep ++ v.leaves.flatMap encodePlanLeaf ++ more)
    ∧ (∀ records held, b = .log records held → ∃ number more,
      bodyBytes type (replyFields b) = number ++ records.flatMap encodeLogRecord ++ more) := by
  refine ⟨?_, ?_, ?_, ?_, ?_, ?_, ?_⟩
  · rintro rfl
    rfl
  · rintro id rfl
    exact bodyBytes_alone type (encodeSlabId id)
  · rintro slab rfl
    exact bodyBytes_alone type (encodeSlab slab)
  · rintro id rfl
    exact bodyBytes_alone type (encodeAbsentSlab id)
  · rintro g rfl
    exact bodyBytes_laid type (encodeStaging g) _
  · rintro v rfl
    exact bodyBytes_laid type (encodePlan v.header v.steps v.leaves) _
  · rintro records held rfl
    exact bodyBytes_log type records held

/-- R183: with no frame held back the frames go out as they stand in the list. -/
theorem toTransmit_unheld {p : Port} (h : ∀ e ∈ p.out, e.held = false) :
    toTransmit p = p.out.map fun e => frameBytes e.frame := by
  have hsent : p.out.filter (fun e => !e.held) = p.out := List.filter_eq_self.mpr fun e he => by rw [h e he]; rfl
  have hheld : p.out.filter (·.held) = [] := List.filter_eq_nil_iff.mpr fun e he => by rw [h e he]; decide
  rw [toTransmit, hsent, hheld, List.append_nil]

/-- Settles O12: a command's fields are read back one by one, and a frame is its covered bytes between mark and check. -/
theorem commandRoundTrip : Obligations.CommandRoundTrip := by
  refine ⟨fun i type body hwf henc => ?_, fun f => ?_, fun p h => toTransmit_unheld h⟩
  · obtain ⟨c, hc, hpair⟩ := Option.map_eq_some_iff.mp henc
    cases hpair
    exact portCommand_commandBody hwf hc
  · cases f with
    | reply r =>
      refine ⟨byte r.type, byte (statusCode r.status) :: bodyBytes r.type (replyFields r.body), portFrame_covered _ _,
        ?_, (fun sg h => nomatch h)⟩
      rintro r' ⟨⟩
      exact ⟨rfl, _, rfl, reply_laid r.type r.body⟩
    | signal sg =>
      refine ⟨byte (signalType sg), bodyBytes (signalType sg) (signalFields sg), portFrame_covered _ _,
        (fun r h => nomatch h), ?_⟩
      rintro sg' ⟨⟩
      refine ⟨?_, ?_, ?_, ?_, ?_, ?_, ?_⟩
      · rintro id rfl
        exact ⟨rfl, bodyBytes_alone _ (encodeSlabId id)⟩
      · rintro id rfl
        exact ⟨rfl, bodyBytes_alone _ (encodeSlabId id)⟩
      · rintro k rfl
        rfl
      · rintro k d rfl
        rfl
      · rintro n rfl
        rfl
      · rintro k d n rfl
        rfl
      · rintro g q l c st sl rfl
        rfl

end Sys2Proof.Machine
end
section
/-! PROOF. The last CUT-DONE completes the plan (R68 to R70, R101, R102): the children, the charges and the TALLYs. -/

namespace Sys2Proof.Machine

/-! ### The children -/

theorem distinct_filter (p : Nat → Bool) (l : List Nat) : distinct (l.filter p) = (distinct l).filter p := by
  induction l with
  | nil => rfl
  | cons n l ih =>
    have hswap : ((distinct l).filter p).filter (fun m => !decide (m = n))
        = ((distinct l).filter fun m => !decide (m = n)).filter p := by
      rw [List.filter_filter, List.filter_filter]
      exact List.filter_congr fun m _ => Bool.and_comm ..
    by_cases hn : p n = true
    · rw [List.filter_cons_of_pos hn, distinct, ih, hswap, distinct, List.filter_cons_of_pos hn]
    · rw [List.filter_cons_of_neg hn, ih, distinct, List.filter_cons_of_neg hn, List.filter_filter]
      refine List.filter_congr fun m _ => ?_
      by_cases hm : m = n
      · simp [hm, hn]
      · simp [hm]

theorem distinct_eq_eraseDups (l : List Nat) : distinct l = l.eraseDups := by
  induction h : l.length using Nat.strongRecOn generalizing l with
  | ind k ih =>
    cases l with
    | nil => rfl
    | cons n l =>
      have hshort : (l.filter fun m => !decide (m = n)).length < k := by
        rw [← h, List.length_cons]
        exact Nat.lt_succ_of_le (List.length_filter_le ..)
      rw [distinct, ← distinct_filter, ih _ hshort _ rfl, List.eraseDups_cons]
      rfl

/-- R21, R53: the regions whose remnants are kept, in ascending order. -/
def keptWanted (s : State) (q : Plan) : List Region :=
  (q.regions.filter fun r => (resolve q).any fun o => isRemnant o && decide (o.region = r.number)).take
    (65536 - s.stock.seqNext)

theorem keptRegions_numbers (s : State) (q : Plan) : keptRegions s q = (keptWanted s q).map (·.number) := by
  rw [keptRegions, remnantRegions, List.filter_map, ← List.map_take]
  rfl

theorem mem_keptWanted {s : State} {q : Plan} {r : Region} (h : r ∈ keptWanted s q) : r ∈ q.regions :=
  List.mem_of_mem_filter (List.mem_of_mem_take h)

section
variable (s : State) (q : Plan) (parent : SlabRecord) (w : SplitWork)

/-- R21, R53: the child of a kept region, the ids given in the order of the regions. -/
def childAt (n : Region × Nat) : SlabRecord :=
  childRecord s.station parent w ⟨s.station, s.boot.epoch, s.stock.seqNext + n.2⟩ n.1

/-- R21: with the region numbers distinct each kept region gives its child. -/
theorem childRecords_eq (hnodup : (q.regions.map (·.number)).Nodup) :
    childRecords s q parent w = (keptWanted s q).zipIdx.map (childAt s parent w) := by
  rw [childRecords, keptRegions_numbers, List.zipIdx_map, List.filterMap_map]
  refine (List.filterMap_congr fun n hn => ?_).trans
    (congrFun (List.filterMap_eq_map (f := childAt s parent w)) _)
  have hregion : findRegion q.regions n.1.number = some n.1 :=
    (findRegion_iff hnodup _ _).mpr ⟨mem_keptWanted (List.fst_mem_of_mem_zipIdx hn), rfl⟩
  simp only [Function.comp_apply, Prod.map_fst, Prod.map_snd, hregion]
  rfl

theorem childRecords_free {r : SlabRecord} (h : r ∈ childRecords s q parent w) : r.state = .free := by
  obtain ⟨n, -, hn⟩ := List.mem_filterMap.mp h
  obtain ⟨r', -, rfl⟩ := Option.map_eq_some_iff.mp hn
  rfl

theorem children_nodup (l : List Region) : ((l.zipIdx.map (childAt s parent w)).map (·.id)).Nodup := by
  have hids : (l.zipIdx.map (childAt s parent w)).map (·.id)
      = (l.zipIdx.map Prod.snd).map fun i => (⟨s.station, s.boot.epoch, s.stock.seqNext + i⟩ : SlabId) := by
    rw [List.map_map, List.map_map]
    rfl
  rw [hids, List.zipIdx_map_snd]
  exact (List.nodup_range' ..).map fun i j h => Nat.add_left_cancel (SlabId.mk.inj h).2.2

end

theorem remnantValue_eq (w : SplitWork) (n : Nat) :
    remnantValue w n = ((w.outcomes.find? fun o => isRemnant o && decide (o.region = n)).map (·.amount)).getD 0 := by
  rw [remnantValue]
  split
  · next h => rw [h]; rfl
  · next h => rw [h]; rfl

theorem remnantDefects_eq (defects : List Defect) (r : Region) : remnantDefects defects r
    = defects.filterMap fun d =>
        if max d.x r.x < min (d.x + d.length) (r.x + r.length) ∧ max d.y r.y < min (d.y + d.width) (r.y + r.width) then
          some ⟨max d.x r.x - r.x, max d.y r.y - r.y, min (d.x + d.length) (r.x + r.length) - max d.x r.x,
            min (d.y + d.width) (r.y + r.width) - max d.y r.y⟩
        else none := by
  refine List.filterMap_congr fun d _ => ?_
  simp only [intersect]
  split <;> rfl

/-! ### The TALLYs -/

/-- A piece outcome of a job. -/
def isPieceOf (j : Nat) (o : Outcome) : Bool :=
  match o.kind with
  | .piece j' _ => decide (j' = j)
  | _ => false

theorem isPieceOf_eq (j : Nat) : isPieceOf j = fun o => decide (pieceJob o = some j) := by
  funext o
  unfold isPieceOf pieceJob
  cases o.kind <;> simp

/-- R69: the TALLYs, each job's at the place of its first charge. -/
theorem tallies_eq (q : Plan) (w : SplitWork) :
    tallies q w = (q.header.chargeJob :: w.outcomes.filterMap pieceJob).eraseDups.map (tallyOf q w) := by
  rw [tallies, distinct_eq_eraseDups]

theorem tallyOf_eq (q : Plan) (w : SplitWork) (j : Nat) : tallyOf q w j =
    let own (n : Nat) : Nat := if j = q.header.chargeJob then n else 0
    { job := j, time := own q.sums.time, water := own q.sums.water, wear := own q.sums.wear
      slab := ((w.outcomes.filter (isPieceOf j)).map (·.amount)).sum
        + own (if w.outcomes.any isPiece = true then 0 else w.loss)
      volume := own q.sums.volume, length := own q.sums.length
      pieces := (w.outcomes.filter (isPieceOf j)).length } := by
  have hloss : (if noPieces w = true then w.loss else 0) = if w.outcomes.any isPiece = true then 0 else w.loss := by
    rw [noPieces]
    cases w.outcomes.any isPiece <;> rfl
  simp only [tallyOf, hloss, isPieceOf_eq]

/-! ### The queue behind a completion -/

theorem addWaiter_new {cause : WaitCause} (es : List QEntry) {ws : List Waiter} (h : ∀ w ∈ ws, w.cause ≠ cause) :
    addWaiter cause es ws = ws ++ [⟨cause, es⟩] := by
  induction ws with
  | nil => rfl
  | cons w ws ih =>
    rw [addWaiter, if_neg (h w List.mem_cons_self), ih fun w' hw' => h w' (List.mem_cons_of_mem _ hw')]
    rfl

/-- R164, R165: notices of a cause that none waits with stand last, in their order. -/
theorem allEntries_putNotices_new {cause : WaitCause} (es : List QEntry) {l : Line}
    (hcause : ∀ w ∈ l.waiters, w.cause ≠ cause) (hfull : l.waiters = [] ∨ queueMax ≤ l.queue.length) :
    allEntries (putNotices cause es l) = allEntries l ++ es := by
  obtain hnone | hfull := hfull
  · rw [allEntries_putNotices cause es hnone, allEntries, hnone, List.flatMap_nil, List.append_nil]
  · have hroom : queueMax - l.queue.length = 0 := by omega
    simp only [allEntries, putNotices, hroom, List.take_zero, List.append_nil, List.drop_zero]
    split
    · next hnil => rw [hnil, List.append_nil]
    · rw [addWaiter_new es hcause, List.flatMap_append, List.append_assoc]
      simp

/-- R69: behind a queue nothing waits for, the completion's DRAW and then its notices. -/
theorem allEntries_completion (d : QEntry) (es : List QEntry) {l : Line} (h : l.waiters = []) :
    allEntries (putNotices .completion es (putNotices .ownDraw [d] l)) = l.queue ++ d :: es := by
  rw [allEntries_putNotices_new, allEntries_putNotices _ _ h, List.append_assoc]
  · rfl
  · intro w hw
    simp only [putNotices, h] at hw
    split at hw
    · cases hw
    · rw [List.mem_singleton.mp hw]
      exact fun hcause => nomatch hcause
  · simp only [putNotices, h]
    split
    · exact .inl rfl
    · next hsome =>
      refine .inr ?_
      rw [List.drop_eq_nil_iff, List.length_singleton] at hsome
      rw [List.length_append]
      omega

/-! ### The charges -/

theorem billed_header (q : Plan) (w : SplitWork) :
    w.outcomes.filterMap pieceCharge
        ++ (if noPieces w = true then [(slabCharge q.header.chargeJob w.loss 0, LogKind.slab, 0)] else [])
      = w.outcomes.filterMap (fun o => (pieceJob o).map fun j => ((⟨j, 0, 0, 0, o.amount, 0, 0, 1⟩ : Tally), LogKind.slab, 0))
        ++ (if w.outcomes.any isPiece = true then []
          else [((⟨q.header.chargeJob, 0, 0, 0, w.loss, 0, 0, 0⟩ : Tally), LogKind.slab, 0)]) := by
  rw [noPieces]
  cases w.outcomes.any isPiece <;> rfl

end Sys2Proof.Machine
end
section
/-! PROOF. The state behind a completion, its SPLIT on the line or written into the own view (R22, R69, R70). -/

namespace Sys2Proof.Machine

/-! ### The own view in listen-only -/

theorem findSlab_foldl_placed {id : SlabId} {rs : List SlabRecord} (hrs : id ∉ rs.map (·.id)) {t : List StockEntry}
    (h : findSlab t id = none) : findSlab (rs.foldl placed t) id = none := by
  induction rs generalizing t with
  | nil => exact h
  | cons r rs ih =>
    obtain ⟨hhead, htail⟩ := List.ne_and_not_mem_of_not_mem_cons hrs
    exact ih htail (findSlab_placed t r id h fun hid => hhead hid.symm)

theorem findSlab_parentPlaced {t : List StockEntry} {id : SlabId} (r : SlabRecord) (h : findSlab t id = none) :
    findSlab (parentPlaced t [r]) id = none := by
  simp only [findSlab, List.find?_eq_none, parentPlaced, List.mem_map] at h ⊢
  rintro x ⟨y, hy, rfl⟩
  have hother := h y hy
  split
  · next hid => simpa [← hid] using hother
  · exact hother

theorem writeSplit_writeFragments (pre : Nat) (fs : List (List SlabRecord)) (s : State) :
    writeSplit pre fs s = writeFragments (fs.map fun rs => (pre, rs)) s := by
  rw [writeFragments, List.foldl_map]
  rfl

/-- R22, R70: a fragment written, and then the children of the rest: the ids being distinct, the ones written do not make
the others known. -/
theorem writeSplit_cons {pre : Nat} {first cs : List SlabRecord} {fs : List (List SlabRecord)} {s : State}
    (hfirst : first = [] ∨ ∃ r v, first = [r] ∧ r.state = .cut ∧ s.slab r.id = some v ∧ v.version = pre
      ∧ v.state = .loaded ∧ v.holder = some s.station)
    (hcut : s.cut.state = .splitting) (hleft : s.cut.splitLeft = fs.length + 1)
    (hnew : ∀ r ∈ cs ++ fs.flatten, r.state = .free ∧ s.slab r.id = none) (hnodup : ((cs ++ fs.flatten).map (·.id)).Nodup)
    (hrest : ∀ t : State, t.cut.state = .splitting → t.cut.splitLeft = fs.length →
      (∀ r ∈ fs.flatten, r.state = .free ∧ t.slab r.id = none) →
      (writeSplit pre fs t).stock.table = fs.flatten.foldl placed t.stock.table) :
    (writeSplit pre ((first ++ cs) :: fs) s).stock.table
      = (cs ++ fs.flatten).foldl placed (parentPlaced s.stock.table first) := by
  rw [List.map_append, List.nodup_append] at hnodup
  obtain ⟨hhead, -, hapart⟩ := hnodup
  obtain ⟨hstock, hmore, -⟩ := ownSplit_fragment pre first cs s hfirst
    (fun r hr => hnew r (List.mem_append_left _ hr)) hhead hcut
  have hwrites : writeSplit pre ((first ++ cs) :: fs) s = writeSplit pre fs (ownSplit pre (first ++ cs) s) := rfl
  rw [hwrites, List.foldl_append]
  by_cases hlast : fs = []
  · subst hlast
    exact congrArg Stock.table hstock
  · have hlength := List.length_pos_iff.mpr hlast
    obtain ⟨hcutAfter, -⟩ := hmore (by omega)
    rw [hrest _ (by rw [hcutAfter]; exact hcut) (by rw [hcutAfter, hleft]; rfl) ?_, hstock]
    intro r hr
    obtain ⟨hfree, hnone⟩ := hnew r (List.mem_append_right _ hr)
    refine ⟨hfree, ?_⟩
    rw [State.slab, hstock, Option.map_eq_none_iff]
    refine findSlab_foldl_placed (fun hmem => hapart _ hmem _ (List.mem_map_of_mem hr) rfl) ?_
    have hunknown := Option.map_eq_none_iff.mp hnone
    obtain rfl | ⟨r', v, rfl, -⟩ := hfirst
    · exact hunknown
    · exact findSlab_parentPlaced r' hunknown

/-- R70: the fragments of children the station does not know are recorded one after another. -/
theorem writeSplit_children (pre : Nat) {fs : List (List SlabRecord)} {s : State} (hcut : s.cut.state = .splitting)
    (hleft : s.cut.splitLeft = fs.length) (hnew : ∀ r ∈ fs.flatten, r.state = .free ∧ s.slab r.id = none)
    (hnodup : (fs.flatten.map (·.id)).Nodup) :
    (writeSplit pre fs s).stock.table = fs.flatten.foldl placed s.stock.table := by
  induction fs generalizing s with
  | nil => rfl
  | cons f fs ih =>
    have htail : (fs.flatten.map (·.id)).Nodup := by
      rw [List.flatten_cons, List.map_append, List.nodup_append] at hnodup
      exact hnodup.2.1
    exact writeSplit_cons (first := []) (.inl rfl) hcut hleft hnew hnodup
      fun t hcut' hleft' hnew' => ih hcut' hleft' hnew' htail

/-- R70: the split written into the own view: the parent CUT, then the children. -/
theorem writeSplit_table {parent : SlabRecord} {children : List SlabRecord} {s : State} (hcut : s.cut.state = .splitting)
    (hleft : s.cut.splitLeft = (pack (cutRecord parent :: children)).length) (hparent : s.slab parent.id = some parent)
    (hloaded : parent.state = .loaded) (hown : parent.holder = some s.station)
    (hnew : ∀ r ∈ children, r.state = .free ∧ s.slab r.id = none) (hnodup : (children.map (·.id)).Nodup) :
    (writeSplit parent.version (pack (cutRecord parent :: children)) s).stock.table
      = children.foldl placed (parentPlaced s.stock.table [cutRecord parent]) := by
  have hflat := pack_flatten (cutRecord parent :: children)
  have hfits := pack_fits (cutRecord parent :: children)
  revert hleft hflat hfits
  generalize pack (cutRecord parent :: children) = fs
  intro hleft hflat hfits
  match fs with
  | [] => cases hflat
  | [] :: _ => exact absurd rfl (hfits [] List.mem_cons_self).1
  | (r :: cs) :: fs =>
    rw [List.flatten_cons, List.cons_append] at hflat
    obtain ⟨rfl, rfl⟩ := List.cons.inj hflat
    have htail : (fs.flatten.map (·.id)).Nodup := by
      rw [List.map_append, List.nodup_append] at hnodup
      exact hnodup.2.1
    exact writeSplit_cons (first := [cutRecord parent]) (.inr ⟨_, parent, rfl, rfl, hparent, rfl, hloaded, hown⟩) hcut hleft
      hnew hnodup fun t hcut' hleft' hnew' => writeSplit_children _ hcut' hleft' hnew' htail

/-! ### The completion -/

section
variable (s : State) (q : Plan) (parent : SlabRecord)

/-- R68: the values of the plan's outcomes. -/
def splitWork : SplitWork := splitValue parent.value (parent.length * parent.width) (outcomesOf s q)

/-- R21, R171: the fragments of the split. -/
def splitParts : List (List SlabRecord) := splitFragments s q parent (splitWork s q parent)

/-- R68, R101: the plan valued, its ids taken and its slab costs charged. -/
def splitCharged : State :=
  chargeSplit q (splitWork s q parent)
    { s with
      stock := { s.stock with seqNext := s.stock.seqNext + (keptRegions s q).length }
      plan := { s.plan with plan := some { q with split := some (splitWork s q parent) } } }

/-- R68, R69: the station in SPLITTING, before its SPLIT is queued or written. -/
def splittingState : State :=
  toCut .splitting { queueDraw .unlock none (splitCharged s q parent) with
    cut := { (queueDraw .unlock none (splitCharged s q parent)).cut with
      segment := none, splitLeft := (splitParts s q parent).length } }

/-- R69: the SPLIT's entries, then the TALLYs. -/
def completionEntries : List QEntry :=
  fragmentEntries (splitNotice parent.version) 0 (splitParts s q parent)
    ++ (tallies q (splitWork s q parent)).map fun t => entry (.tally t) none

theorem splittingState_fields : (splittingState s q parent).cut.state = .splitting
    ∧ (splittingState s q parent).cut.segment = none ∧ (splittingState s q parent).cut.held = s.cut.held
    ∧ (splittingState s q parent).cut.splitLeft = (splitParts s q parent).length
    ∧ (splittingState s q parent).plan.plan = some { q with split := some (splitWork s q parent) }
    ∧ (splittingState s q parent).stock.table = s.stock.table
    ∧ (splittingState s q parent).stock.seqNext = s.stock.seqNext + (keptRegions s q).length
    ∧ (splittingState s q parent).boot.listenOnly = s.boot.listenOnly
    ∧ (splittingState s q parent).station = s.station := by
  refine ⟨rfl, rfl, ?_, rfl, ?_, ?_, ?_, ?_, ?_⟩
  · simp [splittingState, splitCharged]
  · simp [splittingState, splitCharged, toCut, planStands]
  · simp [splittingState, splitCharged]
  · simp [splittingState, splitCharged]
  · simp [splittingState, splitCharged]
  · simp [splittingState, splitCharged, State.station, State.cfg]

theorem splittingState_line_silent (h : s.boot.listenOnly = true) : (splittingState s q parent).line = s.line := by
  simp [splittingState, splitCharged, queueDraw, h]

theorem splittingState_line (h : s.boot.listenOnly = false) (hdraw : drawWaiting s.line = false) :
    (splittingState s q parent).line
      = putNotices .ownDraw [drawEntryFor .unlock none (splitCharged s q parent)] s.line := by
  simp [splittingState, splitCharged, queueDraw, h, hdraw]

variable {s parent} (hparent : s.heldSlab = some parent) (hcut : s.cut.state = .cutting)
include hparent hcut

theorem complete_writes (h : s.boot.listenOnly = true) :
    complete q s = writeSplit parent.version (splitParts s q parent) (splittingState s q parent) := by
  rw [complete, hparent]
  simp only [hcut, h, if_true, show midStep .cutting = true from rfl]
  rfl

theorem complete_queues (h : s.boot.listenOnly = false) :
    complete q s = queueNotices .completion (completionEntries s q parent) (splittingState s q parent) := by
  rw [complete, hparent]
  simp only [hcut, h, Bool.false_eq_true, if_false, if_true, show midStep .cutting = true from rfl]
  rfl

theorem complete_seqNext : (complete q s).stock.seqNext = s.stock.seqNext + (keptRegions s q).length := by
  obtain ⟨-, -, -, -, -, -, hseq, -⟩ := splittingState_fields s q parent
  cases hlisten : s.boot.listenOnly with
  | true => simp [complete_writes q hparent hcut hlisten, hseq]
  | false => simp [complete_queues q hparent hcut hlisten, hseq]

end

end Sys2Proof.Machine
end
section
/-! PROOF. CUT-DONE on the last step (R46, R63, R68): the segment's charge and the split's, the SPLIT and the TALLYs. -/

namespace Sys2Proof.Machine

/-! ### What a completion reads -/

theorem keptRegions_congr {s u : State} (h : u.stock.seqNext = s.stock.seqNext) (q : Plan) :
    keptRegions u q = keptRegions s q := by
  rw [keptRegions, keptRegions, h]

theorem splitWork_congr {s u : State} (h : u.stock.seqNext = s.stock.seqNext) (q : Plan) (parent : SlabRecord) :
    splitWork u q parent = splitWork s q parent := by
  rw [splitWork, splitWork, outcomesOf, outcomesOf, keptRegions_congr h]

theorem childRecords_congr {s u : State} (h : u.stock.seqNext = s.stock.seqNext) (hstation : u.station = s.station)
    (hepoch : u.boot.epoch = s.boot.epoch) (q : Plan) (parent : SlabRecord) (w : SplitWork) :
    childRecords u q parent w = childRecords s q parent w := by
  rw [childRecords, childRecords, keptRegions_congr h, h, hstation, hepoch]

theorem heldSlab_slab {s : State} {parent : SlabRecord} (h : s.heldSlab = some parent) : s.slab parent.id = some parent := by
  obtain ⟨id, -, hslab⟩ := Option.bind_eq_some_iff.mp h
  rwa [slab_id hslab]

/-! ### The charges -/

/-- R67, R146: the charge of the segment closed. -/
theorem closeSegment_billed {s : State} {p : Plan} {seg : Segment} {k : Nat} {st : PlanStep} (length : Nat)
    (hplan : s.plan.plan = some p) (hseg : s.cut.segment = some seg) (hk : seg.step = k + 1) (hst : p.steps[k]? = some st) :
    let lc := min length (remainingOf p st)
    let f := figuresNow s seg lc
    ((closeSegment length s).cost.jobs, (closeSegment length s).cost.log)
      = (if lc = 0 then [] else
          [((⟨p.header.chargeJob, f.time, f.water, f.wear, 0, f.volume, lc, 0⟩ : Tally), LogKind.cut, k + 1)]).foldl
        (billed s.boot.shopTime p.header.slab) (s.cost.jobs, s.cost.log) := by
  intro lc f
  by_cases h0 : lc = 0
  · rw [closeSegment_zero length hplan hseg hk hst h0, if_pos h0]
    rfl
  · rw [closeSegment_charges length hplan hseg hk hst h0, if_neg h0, ← hk]
    exact (ownCharge_billed ..).1

/-- R101: what a split charges: each piece to its job, and the loss to the charge job when there is no piece. -/
def splitCharges (job : Nat) (w : SplitWork) : List (Tally × LogKind × Nat) :=
  w.outcomes.filterMap (fun o => (pieceJob o).map fun j => (⟨j, 0, 0, 0, o.amount, 0, 0, 1⟩, .slab, 0))
    ++ (if w.outcomes.any isPiece = true then [] else [(⟨job, 0, 0, 0, w.loss, 0, 0, 0⟩, .slab, 0)])

theorem complete_charges {s : State} (q : Plan) {parent : SlabRecord} (h : s.heldSlab = some parent) :
    ((complete q s).cost.jobs, (complete q s).cost.log)
      = (splitCharges q.header.chargeJob (splitWork s q parent)).foldl (billed s.boot.shopTime q.header.slab)
        (s.cost.jobs, s.cost.log) := by
  rw [splitCharges, ← billed_header]
  exact complete_billed q s parent h

/-! ### The state behind a completion -/

theorem splitParts_ne_nil (s : State) (q : Plan) (parent : SlabRecord) : splitParts s q parent ≠ [] := by
  intro hnil
  have hflat := pack_flatten (cutRecord parent :: childRecords s q parent (splitWork s q parent))
  rw [show pack _ = [] from hnil] at hflat
  cases hflat

section
variable {s : State} (q : Plan) {parent : SlabRecord} (hparent : s.heldSlab = some parent)
  (hcut : s.cut.state = .cutting)
include hparent hcut

/-- R69: on the line the station waits in SPLITTING for its fragments. -/
theorem complete_open (hlisten : s.boot.listenOnly = false) :
    (complete q s).cut.state = .splitting ∧ (complete q s).cut.segment = none ∧ (complete q s).cut.held = s.cut.held
      ∧ (complete q s).plan.plan = some { q with split := some (splitWork s q parent) }
      ∧ (complete q s).stock.table = s.stock.table
      ∧ (complete q s).cut.splitLeft = (splitParts s q parent).length := by
  obtain ⟨hstate, hsegment, hheld, hleft, hplan, htable, -⟩ := splittingState_fields s q parent
  rw [complete_queues q hparent hcut hlisten]
  exact ⟨hstate, hsegment, hheld, hplan, htable, hleft⟩

/-- R66, R69, R102: the unlocking DRAW, the fragments of the SPLIT and the TALLYs, in this order. -/
theorem complete_notices (hlisten : s.boot.listenOnly = false) (hwaiters : s.line.waiters = [])
    (hdraw : drawWaiting s.line = false) : (allEntries (complete q s).line).map (·.notice)
      = s.line.queue.map (·.notice) ++ .draw s.water.ownRequest false 0
        :: ((splitParts s q parent).zipIdx.map fun rs => .split (if rs.2 < 8 then parent.version else 0) rs.1)
        ++ ((q.header.chargeJob :: (splitWork s q parent).outcomes.filterMap pieceJob).eraseDups.map fun j =>
          .tally (tallyOf q (splitWork s q parent) j)) := by
  obtain ⟨-, -, -, -, -, -, -, hline, -⟩ := splittingState_fields s q parent
  have hqueued : (complete q s).line = putNotices .completion (completionEntries s q parent)
      (putNotices .ownDraw [drawEntryFor .unlock none (splitCharged s q parent)] s.line) := by
    rw [complete_queues q hparent hcut hlisten, queueNotices, splittingState_line s q parent hlisten hdraw]
    exact if_neg (by rw [hline, hlisten]; decide)
  have hnotice : (drawEntryFor .unlock none (splitCharged s q parent)).notice = .draw s.water.ownRequest false 0 := by
    simp [drawEntryFor, entry, splitCharged]
  have hsplit : (fragmentEntries (splitNotice parent.version) 0 (splitParts s q parent)).map (·.notice)
      = (splitParts s q parent).zipIdx.map fun rs => .split (if rs.2 < 8 then parent.version else 0) rs.1 := by
    rw [fragmentEntries_notices]
    exact List.map_congr_left fun f _ => by simp only [splitNotice, decide_eq_true_eq]
  have htallies : ((tallies q (splitWork s q parent)).map fun t => entry (.tally t) none).map (·.notice)
      = (q.header.chargeJob :: (splitWork s q parent).outcomes.filterMap pieceJob).eraseDups.map fun j =>
        Notice.tally (tallyOf q (splitWork s q parent) j) := by
    rw [tallies_eq, List.map_map, List.map_map]
    rfl
  rw [hqueued, allEntries_completion _ _ hwaiters, List.map_append, List.map_cons, hnotice, completionEntries,
    List.map_append, hsplit, htallies, List.append_assoc]
  rfl

/-- R70: in listen-only the split is written into the own view, and the cut state is EMPTY. -/
theorem complete_silent (hlisten : s.boot.listenOnly = true) :
    (complete q s).cut.state = .empty ∧ (complete q s).cut.held = none ∧ (complete q s).plan.plan = none
      ∧ (complete q s).line = s.line := by
  obtain ⟨hstate, -, -, hleft, -, -, -, hsilent, -⟩ := splittingState_fields s q parent
  rw [complete_writes q hparent hcut hlisten, writeSplit_writeFragments]
  have hsome : (splitParts s q parent).map (fun rs => (parent.version, rs)) ≠ [] := by
    simpa using splitParts_ne_nil s q parent
  obtain ⟨hempty, hnone, hplan⟩ := writeFragments_empties hsome hstate (by rw [hleft, List.length_map])
  refine ⟨hempty, hnone, by rw [hplan], ?_⟩
  rw [(writeFragments_leaves ..).line (hsilent.trans hlisten), splittingState_line_silent s q parent hlisten]

theorem complete_silent_table (hlisten : s.boot.listenOnly = true) (hloaded : parent.state = .loaded)
    (hown : parent.holder = some s.station) {children : List SlabRecord}
    (hchildren : childRecords s q parent (splitWork s q parent) = children) (hnodup : (children.map (·.id)).Nodup)
    (hnew : ∀ r ∈ children, s.slab r.id = none) :
    (complete q s).stock.table = children.foldl placed (parentPlaced s.stock.table [cutRecord parent]) := by
  obtain ⟨hstate, -, -, hleft, -, htable, -, -, hstation⟩ := splittingState_fields s q parent
  have hslab : (splittingState s q parent).slab = s.slab := by
    funext id
    rw [State.slab, htable]
    rfl
  subst hchildren
  rw [complete_writes q hparent hcut hlisten, splitParts, splitFragments, writeSplit_table hstate hleft
    (by rw [hslab]; exact heldSlab_slab hparent) hloaded (by rw [hstation]; exact hown)
    (fun r hr => ⟨childRecords_free s q parent _ hr, by rw [hslab]; exact hnew r hr⟩) hnodup, htable]

end

/-- Settles O37: the closed segment by `closeSegment_billed`, the completion behind it by `complete_billed`,
`complete_notices` and `complete_silent_table`. -/
theorem planCompletes : Obligations.PlanCompletes := by
  intro s p seg k st parent length hreach hcut hseg hplan hheld hk hst whole lc f worked q os w isPieceOf' jobOf wanted
    kept child cutParent children records final place tally shut top create post bill charges hdone hnodup
  obtain ⟨hworked, hblade, -, -, -, hbody⟩ := closeSegment_closed length hplan hseg hk hst
  replace hworked : (closeSegment length s).plan.plan = some worked := hworked
  have hfinish : finishStep (k + 1) worked = q := finishStep_worked hst f lc
  let u : State := { closeSegment length s with plan := { (closeSegment length s).plan with plan := some q } }
  have hdoneStep : takeCutDone length s = reply .cutDone .ok (if lc = 0 then .segment 0 0 0 0 0
      else .segment lc f.duration f.volume f.wholeWear (f.time + f.water + f.wear)) (complete q u) := by
    rw [takeCutDone_of_segment length hcut hseg, hbody, hk, endStep_last hworked (by rw [hfinish]; exact hdone), hfinish]
    rfl
  have hstock : u.stock = s.stock := by simp [u]
  have hline : u.line = s.line := by simp [u]
  have hwater : u.water = s.water := by simp [u]
  have hlisten : u.boot.listenOnly = s.boot.listenOnly := by simp [u]
  have hstation : u.station = s.station := (closeSegment_views length s).2.1
  have hslab : u.slab = s.slab := by funext id; rw [State.slab, hstock]; rfl
  have hheldId : u.cut.held = s.cut.held := by simp [u]
  have hcutting : u.cut.state = .cutting := by simpa [u] using hcut
  have hparent : u.heldSlab = some parent := by rw [State.heldSlab, hheldId, hslab]; exact hheld
  have hseq : u.stock.seqNext = s.stock.seqNext := by rw [hstock]
  have hkept : keptRegions u q = kept.map (·.number) := (keptRegions_congr hseq q).trans (keptRegions_numbers s q)
  have hwork : splitWork u q parent = w := splitWork_congr hseq q parent
  have hown : childRecords s q parent w = children := by
    rw [childRecords_eq s q parent w hnodup]
    refine List.map_congr_left fun n _ => ?_
    rw [childAt, childRecord, remnantDefects_eq, remnantValue_eq]
    rfl
  have hchildren : childRecords u q parent (splitWork u q parent) = children := by
    rw [hwork, childRecords_congr hseq hstation (by simp [u]), hown]
  have hids : (children.map (·.id)).Nodup := by
    rw [← hown, childRecords_eq s q parent w hnodup]
    exact children_nodup s parent w kept
  have hparts : splitParts u q parent = pack records := by
    rw [splitParts, splitFragments, hchildren]
    rfl
  have htally : tallyOf q w = tally := funext fun j => tallyOf_eq q w j
  refine ⟨_, next_gate rfl hreach _, ?_⟩
  rw [hdoneStep]
  refine ⟨reply_mem .cutDone _ _ _, ?_⟩
  simp only [reply_fields]
  refine ⟨?_, ?_, ?_, ?_, fun hopen => ?_, fun hsilent => ?_⟩
  · simp [hwater]
  · refine Eq.trans ?_ hblade
    simp [u]
  · rw [complete_seqNext q hparent hcutting, hkept, List.length_map, hstock]
  · have htime : u.boot.shopTime = s.boot.shopTime := by simp [u]
    have hclosed := closeSegment_billed length hplan hseg hk hst
    have hbilled := complete_charges q hparent
    rw [hwork, htime, show (u.cost.jobs, u.cost.log)
      = ((closeSegment length s).cost.jobs, (closeSegment length s).cost.log) from rfl, hclosed,
      ← List.foldl_append] at hbilled
    have hcharges : charges = (if lc = 0 then []
        else [(⟨q.header.chargeJob, f.time, f.water, f.wear, 0, f.volume, lc, 0⟩, .cut, k + 1)])
        ++ splitCharges q.header.chargeJob w := List.append_assoc ..
    rw [hcharges]
    exact hbilled
  · obtain ⟨hstate, hsegment, hheldAfter, hplanAfter, htable, hleft⟩ :=
      complete_open q hparent hcutting (hlisten.trans hopen)
    rw [hwork] at hplanAfter
    refine ⟨hstate, hsegment, hheldAfter.trans hheldId, hplanAfter, htable.trans (congrArg Stock.table hstock),
      pack records, pack_flatten records, fun rs hrs => ?_, by rw [← hparts]; exact hleft, fun hwaiters hdraw => ?_⟩
    · obtain ⟨hne, hfits⟩ := pack_fits records rs hrs
      refine ⟨hne, hfits.imp_right fun hsum => ?_⟩
      rw [fragmentRoom] at hsum
      omega
    · have hnotices := complete_notices q hparent hcutting (hlisten.trans hopen) (by rw [hline]; exact hwaiters)
        (by rw [hline]; exact hdraw)
      rw [hline, hwater, hparts, hwork, htally] at hnotices
      exact hnotices
  · obtain ⟨hempty, hnone, hplanAfter, hlineAfter⟩ := complete_silent q hparent hcutting (hlisten.trans hsilent)
    refine ⟨hempty, hnone, hplanAfter, hlineAfter.trans hline, fun hloaded hholder hnew => ?_⟩
    have htable := complete_silent_table q hparent hcutting (hlisten.trans hsilent) hloaded
      (by rw [hstation]; exact hholder) hchildren hids (by rw [hslab]; exact hnew)
    rw [hstock] at htable
    exact htable

end Sys2Proof.Machine
end
